-- ==== Sys2Proof/Word.lean ====
section
/-! DEFINITION. The word types of the PPE: the byte (R51: the only unit of access), byte strings (R9) and the
24-bit word of both formats of the opcode table (R74, R89). -/

namespace Sys2Proof

/-- One byte; bit 0 is the least significant (R8). -/
abbrev Byte := BitVec 8

/-- A finite byte string (R9). -/
abbrev Bytes := List (BitVec 8)

/-- The 24-bit number of a command word (R89) or of a frame header (R74). -/
abbrev Word24 := BitVec 24

end Sys2Proof
end

