-- ==== Sys2Proof/Config.lean ====
section
/-! DEFINITION. What PPE-1 fixes (R6, R7) and what the spec leaves open: the two OPEN parameters and the free
values, each an opaque constant of which nothing can be proved. -/

namespace Sys2Proof.Config

/-- `FRAME_CAP` (R6): bytes of a frame's storage. -/
@[simp] def frameCap : Nat := 64

/-- `HDR_SIZE` (R6). -/
@[simp] def hdrSize : Nat := 3

/-- `MAX_PAYLOAD` (R6). -/
@[simp] def maxPayload : Nat := 61

/-- `LEN_FIELD_MAX` (R6). -/
@[simp] def lenFieldMax : Nat := 63

/-- `MAX_RAW_ENC` (R6): raw bytes of one expansion-coded frame. -/
@[simp] def maxRawEnc : Nat := 45

/-- `PARAM_CAP` (R6): bytes of a Command's or an Ack's string. -/
@[simp] def paramCap : Nat := 60

/-- `NOTICE_CAP` (R6): bytes of a Notice's string. -/
@[simp] def noticeCap : Nat := 61

/-- `SEQ_RESET` (R7, R343). -/
@[simp] def seqReset : BitVec 8 := 0

/-- The largest finite receive budget, `2^31 - 1` (R31, R247). -/
@[simp] def budgetMax : Nat := 2147483647

/-- `STREAM_LEN_BITS` = 16 (R7): the largest length of a byte string on the data ports. -/
@[simp] def streamMax : Nat := 65535

/-- `HEX_DELIM` (R7): the byte the module puts between two hex-coded frame bytes. No rule of the receiver compares
a received byte with it (R252). -/
@[simp] def hexDelim : BitVec 8 := 0x2C

/-- `WIRE_PROFILE` (R88): the inbound framing of the frame bytes. -/
inductive WireProfile where
  /-- Frame bytes arrive as they stand. -/
  | rawBinary
  /-- Each frame byte arrives as two hex digits, one delimiter byte between consecutive bytes. -/
  | asciiHex
deriving DecidableEq, Repr, Inhabited

/-- `EXT_BYTES` (R7, R88): wire bytes of a maximal frame. -/
def extBytes : WireProfile → Nat
  | .rawBinary => 77
  | .asciiHex => 204

/-- The two parameters R7 leaves OPEN, as an argument of the machine (U12, U13). State carries one value of it, which
no step writes (notes/assumptions/7). -/
structure Params where
  /-- `WIRE_PROFILE`. -/
  profile : WireProfile
  /-- `OPC_EXEC`, the reserved "execute module command" opcode (R83). -/
  opcExec : BitVec 8
deriving DecidableEq, Repr

/-- `WIRE_PROFILE` of the machine that reset starts; OPEN (R7). -/
opaque wireProfile : WireProfile

/-- `OPC_EXEC` of the machine that reset starts; OPEN (R7, D26). -/
opaque opcExec : BitVec 8

/-- The tick sample that `now()` answers where no script gives one (R11, R362; notes/assumptions/8). -/
opaque freeTick : Nat → BitVec 32

/-- The bytes that arrive at the transport before a `T.avail` query where no script gives them (R11, R63). -/
opaque freeArrival : Nat → List (BitVec 8)

/-- The count that `T.send` answers where no script gives one (R11). -/
opaque freeAccepted : Nat → Nat

/-- The answer of `T.exec` where no script gives one: a response, or failure (R11). -/
opaque freeExec : Nat → Option (List (BitVec 8))

/-- The estimate that `T.byteTime` answers where no script gives one (R11). -/
opaque freeByteTime : Nat → Nat

/-- What the 16-bit `val` of the result port shows for a natural that does not fit in it (R13 against R91;
notes/assumptions/12). -/
opaque wideVal : Nat → BitVec 16

end Sys2Proof.Config
end

