-- ==== Sys2Proof/Syntax.lean ====
section
/-! DEFINITION. The instructions: one constructor for each row of spec/opcode_table.json (six header-type rows of
format HDR24, 49 operations of format CMD24), and what is fetched to make one. -/

namespace Sys2Proof

/-- The frame select bit `f` of a command word (R89): `F[0]` or `F[1]` (R20). -/
inductive FrameSel where
  | f0
  | f1
deriving DecidableEq, Repr

/-- The fields that every HDR24 row has in common (R71 to R73): the unused bits of bytes 0 and 1, `length`, `FRAG`,
`ACKREQ` and the frame identifier. -/
structure HeaderFields where
  /-- Bits 7 and 6 of byte 0. -/
  unused0 : BitVec 2
  /-- Bits 5 to 0 of byte 0. -/
  length : BitVec 6
  /-- Bits 7 and 6 of byte 1. -/
  unused1 : BitVec 2
  /-- Bit 4 of byte 1. -/
  frag : Bool
  /-- Bit 3 of byte 1. -/
  ackReq : Bool
  /-- Byte 2. -/
  id : BitVec 8
deriving DecidableEq, Repr

/-- One row of the opcode table, with its operands. A byte string `s`, the four bytes of `HDR.PACK`, the byte of
`FRM.ST` and the budget of `RCV.LISTEN` arrive on the data-in port (R91) and are operands like the others (R92). -/
inductive Instr where
  -- HDR24: a received frame's header, dispatched by the receiver in state Done (R257)
  | typeDataRaw (h : HeaderFields)
  | typeDataEnc (h : HeaderFields)
  | typeCommand (enc : Bool) (h : HeaderFields)
  | typeAck (enc : Bool) (h : HeaderFields)
  | typeNotice (enc : Bool) (h : HeaderFields)
  | typeReserved (low : BitVec 2) (enc : Bool) (h : HeaderFields)
  -- FRM (R100 to R108)
  | frmClear (f : FrameSel)
  | frmPut (f : FrameSel) (b : BitVec 8)
  | frmGet (f : FrameSel)
  | frmResetLen (f : FrameSel) (n : BitVec 8)
  | frmExtent (f : FrameSel)
  | frmLd (f : FrameSel) (i : BitVec 6)
  | frmSt (f : FrameSel) (i : BitVec 6) (v : BitVec 8)
  | frmMeta (f : FrameSel)
  -- HDR (R120 to R137)
  | hdrReset (f : FrameSel) (n : BitVec 8)
  | hdrLen (f : FrameSel)
  | hdrType (f : FrameSel)
  | hdrEnc (f : FrameSel)
  | hdrFrag (f : FrameSel)
  | hdrAckReq (f : FrameSel)
  | hdrId (f : FrameSel)
  | hdrSetLen (f : FrameSel) (v : BitVec 8)
  | hdrSetType (f : FrameSel) (t : BitVec 3)
  | hdrSetEnc (f : FrameSel) (b : Bool)
  | hdrSetFrag (f : FrameSel) (b : Bool)
  | hdrSetAckReq (f : FrameSel) (b : Bool)
  | hdrSetId (f : FrameSel) (v : BitVec 8)
  | hdrUpdLen (f : FrameSel)
  | hdrDispatch (f : FrameSel)
  | hdrPack (f : FrameSel) (len flags type id : BitVec 8)
  | hdrUnpack (f : FrameSel)
  -- DAT (R151 to R154)
  | datSetRaw (f : FrameSel) (s : List (BitVec 8))
  | datSetEnc (f : FrameSel) (s : List (BitVec 8))
  | datDecode (f : FrameSel)
  | datGet (f : FrameSel)
  -- CMD (R155 to R158)
  | cmdSetOp (f : FrameSel) (op : BitVec 8)
  | cmdGetOp (f : FrameSel)
  | cmdSetParam (f : FrameSel) (s : List (BitVec 8))
  | cmdGetParam (f : FrameSel)
  -- ACK (R160 to R164)
  | ackSetOp (f : FrameSel) (op : BitVec 8)
  | ackGetOp (f : FrameSel)
  | ackSetResp (f : FrameSel) (s : List (BitVec 8))
  | ackGetResp (f : FrameSel)
  -- NTC (R165, R166)
  | ntcSet (f : FrameSel) (s : List (BitVec 8))
  | ntcGet (f : FrameSel)
  -- EXP (R195, R196)
  | expEnc (s : List (BitVec 8))
  | expDec (s : List (BitVec 8))
  -- SND (R210 to R218)
  | sndSeq
  | sndXmit (f : FrameSel)
  | sndData (fragment encode : Bool) (s : List (BitVec 8))
  | sndCmd (op : BitVec 8) (s : List (BitVec 8))
  | sndCmdAck (op : BitVec 8) (s : List (BitVec 8))
  | sndAck (op : BitVec 8) (s : List (BitVec 8))
  | sndNotice (s : List (BitVec 8))
  -- RCV (R241)
  | rcvListen (f : FrameSel) (budget : BitVec 32)
deriving DecidableEq, Repr

/-- What the host presents for one operation (R91): the command word, and the bytes it sends on the data-in port. -/
structure Transaction where
  word : BitVec 24
  dataIn : List (BitVec 8)
deriving DecidableEq, Repr

/-- The two places an instruction is fetched from: the command port (format CMD24), and the header of the completed
working frame, `buf[0]*65536 + buf[1]*256 + buf[2]` (format HDR24, R74). -/
inductive Fetched where
  | command (t : Transaction)
  | header (w : BitVec 24)
deriving DecidableEq, Repr

end Sys2Proof
end

