-- ==== Sys2Proof/WellFormed.lean ====
section
/-! DEFINITION. Which instructions an encoding admits. The field widths of the table are in the types of the
operands; the one thing left to check is the length of a byte string (R91: 0 to 65535). -/

namespace Sys2Proof

/-- A byte string that the data-in port can carry (R91). -/
def wellFormedString (s : List (BitVec 8)) : Bool := decide (s.length ≤ Config.streamMax)

/-- The check of one instruction. -/
def wellFormed : Instr → Bool
  | .datSetRaw _ s => wellFormedString s
  | .datSetEnc _ s => wellFormedString s
  | .cmdSetParam _ s => wellFormedString s
  | .ackSetResp _ s => wellFormedString s
  | .ntcSet _ s => wellFormedString s
  | .expEnc s => wellFormedString s
  | .expDec s => wellFormedString s
  | .sndData _ _ s => wellFormedString s
  | .sndCmd _ s => wellFormedString s
  | .sndCmdAck _ s => wellFormedString s
  | .sndAck _ s => wellFormedString s
  | .sndNotice s => wellFormedString s
  | .typeDataRaw _ => true
  | .typeDataEnc _ => true
  | .typeCommand _ _ => true
  | .typeAck _ _ => true
  | .typeNotice _ _ => true
  | .typeReserved _ _ _ => true
  | .frmClear _ => true
  | .frmPut _ _ => true
  | .frmGet _ => true
  | .frmResetLen _ _ => true
  | .frmExtent _ => true
  | .frmLd _ _ => true
  | .frmSt _ _ _ => true
  | .frmMeta _ => true
  | .hdrReset _ _ => true
  | .hdrLen _ => true
  | .hdrType _ => true
  | .hdrEnc _ => true
  | .hdrFrag _ => true
  | .hdrAckReq _ => true
  | .hdrId _ => true
  | .hdrSetLen _ _ => true
  | .hdrSetType _ _ => true
  | .hdrSetEnc _ _ => true
  | .hdrSetFrag _ _ => true
  | .hdrSetAckReq _ _ => true
  | .hdrSetId _ _ => true
  | .hdrUpdLen _ => true
  | .hdrDispatch _ => true
  | .hdrPack _ _ _ _ _ => true
  | .hdrUnpack _ => true
  | .datDecode _ => true
  | .datGet _ => true
  | .cmdSetOp _ _ => true
  | .cmdGetOp _ => true
  | .cmdGetParam _ => true
  | .ackSetOp _ _ => true
  | .ackGetOp _ => true
  | .ackGetResp _ => true
  | .ntcGet _ => true
  | .sndSeq => true
  | .sndXmit _ => true
  | .rcvListen _ _ => true

end Sys2Proof
end

