-- ==== Sys2Proof/Decode.lean ====
section
/-! DEFINITION. The decoder, total on any words, and the encoder: format CMD24 with its data-in operand (R89 to R91)
and format HDR24 (R71 to R74). -/

namespace Sys2Proof

/-- Why the command port does not accept a word (R89, R91; U9). -/
inductive Reject where
  /-- `opsel` is not in the table of R90. -/
  | unassignedOpsel (opsel : BitVec 8)
  /-- Bits 15 to 9 are not all 0. -/
  | reservedBits
  /-- Bit 8 is 1 for an operation that names no frame. -/
  | frameSelect
  /-- `imm8` is not 0 for an operation without one, or lies outside the operation's range. -/
  | immediate
  /-- The bytes on the data-in port are not the operand the operation takes (R91). -/
  | dataIn
deriving DecidableEq, Repr

/-! ### Byte order of the data-in port (R56, R91) -/

/-- A 16-bit length prefix, least significant byte first. -/
def lengthPrefix (n : Nat) : List (BitVec 8) := [BitVec.ofNat 8 n, BitVec.ofNat 8 (n / 256)]

/-- A byte string as it stands on the data-in port: its length prefix, then its bytes. -/
def stringToPort (s : List (BitVec 8)) : List (BitVec 8) := lengthPrefix s.length ++ s

/-- The byte string on the data-in port; none where the bytes are not exactly a prefix and that many bytes. -/
def stringFromPort : List (BitVec 8) → Option (List (BitVec 8))
  | lo :: hi :: s => if s.length = lo.toNat + 256 * hi.toNat then some s else none
  | _ => none

/-- The budget as it stands on the data-in port, least significant byte first. -/
def budgetToPort (b : BitVec 32) : List (BitVec 8) :=
  [b.extractLsb' 0 8, b.extractLsb' 8 8, b.extractLsb' 16 8, b.extractLsb' 24 8]

/-- The budget on the data-in port; none where it does not hold exactly four bytes. -/
def budgetFromPort : List (BitVec 8) → Option (BitVec 32)
  | [b0, b1, b2, b3] => some (b3 ++ b2 ++ b1 ++ b0)
  | _ => none

/-! ### Fields of a command word (R89) -/

/-- Bits 23 to 16. -/
def opselOf (w : BitVec 24) : BitVec 8 := w.extractLsb' 16 8

/-- Bits 15 to 9, which must be 0. -/
def zerosOf (w : BitVec 24) : BitVec 7 := w.extractLsb' 9 7

/-- Bit 8. -/
def selBitOf (w : BitVec 24) : Bool := w.getLsbD 8

/-- Bits 7 to 0. -/
def immOf (w : BitVec 24) : BitVec 8 := w.extractLsb' 0 8

/-- Bit 8 as a frame (R20, R89). -/
def frameOfBit (b : Bool) : FrameSel := if b then .f1 else .f0

/-- The frame select bit of a frame. -/
def bitOfFrame : FrameSel → Bool
  | .f0 => false
  | .f1 => true

/-- The command word of four fields: `oooooooo 0000000f iiiiiiii` (R89). -/
def commandWord (opsel : BitVec 8) (sel : Bool) (imm : BitVec 8) : BitVec 24 :=
  opsel ++ (0 : BitVec 7) ++ BitVec.ofBool sel ++ imm

/-! ### Operand shapes of the operations (R79, R90) -/

/-- An operation without data-in takes none. -/
def noData (t : Transaction) (i : Instr) : Except Reject Instr :=
  if t.dataIn = [] then .ok i else .error .dataIn

/-- The byte-string operand `s`. -/
def withString (t : Transaction) (k : List (BitVec 8) → Instr) : Except Reject Instr :=
  match stringFromPort t.dataIn with
  | some s => .ok (k s)
  | none => .error .dataIn

/-- An operation with `f`. -/
def withFrame (t : Transaction) (k : FrameSel → Except Reject Instr) : Except Reject Instr :=
  k (frameOfBit (selBitOf t.word))

/-- An operation without `f` requires bit 8 = 0. -/
def noFrame (t : Transaction) (k : Except Reject Instr) : Except Reject Instr :=
  if selBitOf t.word then .error .frameSelect else k

/-- An `imm8` of `n` bits requires the bits above them to be 0. -/
def withImm (t : Transaction) (n : Nat) (k : BitVec n → Except Reject Instr) : Except Reject Instr :=
  if (immOf t.word).toNat < 2 ^ n then k ((immOf t.word).setWidth n) else .error .immediate

/-- An operation without `imm8` requires bits 7 to 0 = 0. -/
def noImm (t : Transaction) (k : Except Reject Instr) : Except Reject Instr :=
  if immOf t.word = 0 then k else .error .immediate

/-- `f` alone. -/
def frameOnly (t : Transaction) (k : FrameSel → Instr) : Except Reject Instr :=
  withFrame t fun f => noImm t (noData t (k f))

/-- `f` and an `imm8` of `n` bits. -/
def frameImm (t : Transaction) (n : Nat) (k : FrameSel → BitVec n → Instr) : Except Reject Instr :=
  withFrame t fun f => withImm t n fun v => noData t (k f v)

/-- `f` and a flag value. -/
def frameFlag (t : Transaction) (k : FrameSel → Bool → Instr) : Except Reject Instr :=
  frameImm t 1 fun f b => k f (b.getLsbD 0)

/-- `f` and a byte string. -/
def frameString (t : Transaction) (k : FrameSel → List (BitVec 8) → Instr) : Except Reject Instr :=
  withFrame t fun f => noImm t (withString t (k f))

/-- An opcode and a byte string, no frame. -/
def immString (t : Transaction) (k : BitVec 8 → List (BitVec 8) → Instr) : Except Reject Instr :=
  noFrame t (withImm t 8 fun op => withString t (k op))

/-- A byte string alone. -/
def stringOnly (t : Transaction) (k : List (BitVec 8) → Instr) : Except Reject Instr :=
  noFrame t (noImm t (withString t k))

/-- `FRM.ST`: an index, and exactly one byte on data-in (R91). -/
def decodeSt (t : Transaction) : Except Reject Instr :=
  withFrame t fun f => withImm t 6 fun i =>
    match stringFromPort t.dataIn with
    | some [v] => .ok (.frmSt f i v)
    | _ => .error .dataIn

/-- `HDR.PACK`: exactly four bytes on data-in (R91). -/
def decodePack (t : Transaction) : Except Reject Instr :=
  withFrame t fun f => noImm t
    (match stringFromPort t.dataIn with
    | some [len, flags, type, id] => .ok (.hdrPack f len flags type id)
    | _ => .error .dataIn)

/-- `SND.DATA`: option bit 0 is `fragment`, bit 1 is `encode` (R213). -/
def decodeData (t : Transaction) : Except Reject Instr :=
  noFrame t (withImm t 2 fun o => withString t (.sndData (o.getLsbD 0) (o.getLsbD 1)))

/-- `RCV.LISTEN`: four bytes of budget on data-in, without a length prefix (R91). -/
def decodeListen (t : Transaction) : Except Reject Instr :=
  withFrame t fun f => noImm t
    (match budgetFromPort t.dataIn with
    | some b => .ok (.rcvListen f b)
    | none => .error .dataIn)

/-- The 49 operations by `opsel` (R90). -/
def decodeOpsel (t : Transaction) : Except Reject Instr :=
  match (opselOf t.word).toNat with
  | 0x01 => frameOnly t .frmClear
  | 0x02 => frameImm t 8 .frmPut
  | 0x03 => frameOnly t .frmGet
  | 0x04 => frameImm t 8 .frmResetLen
  | 0x05 => frameOnly t .frmExtent
  | 0x06 => frameImm t 6 .frmLd
  | 0x07 => decodeSt t
  | 0x08 => frameOnly t .frmMeta
  | 0x10 => frameImm t 8 .hdrReset
  | 0x11 => frameOnly t .hdrLen
  | 0x12 => frameOnly t .hdrType
  | 0x13 => frameOnly t .hdrEnc
  | 0x14 => frameOnly t .hdrFrag
  | 0x15 => frameOnly t .hdrAckReq
  | 0x16 => frameOnly t .hdrId
  | 0x17 => frameImm t 8 .hdrSetLen
  | 0x18 => frameImm t 3 .hdrSetType
  | 0x19 => frameFlag t .hdrSetEnc
  | 0x1A => frameFlag t .hdrSetFrag
  | 0x1B => frameFlag t .hdrSetAckReq
  | 0x1C => frameImm t 8 .hdrSetId
  | 0x1D => frameOnly t .hdrUpdLen
  | 0x1E => frameOnly t .hdrDispatch
  | 0x1F => decodePack t
  | 0x20 => frameOnly t .hdrUnpack
  | 0x28 => frameString t .datSetRaw
  | 0x29 => frameString t .datSetEnc
  | 0x2A => frameOnly t .datDecode
  | 0x2B => frameOnly t .datGet
  | 0x30 => frameImm t 8 .cmdSetOp
  | 0x31 => frameOnly t .cmdGetOp
  | 0x32 => frameString t .cmdSetParam
  | 0x33 => frameOnly t .cmdGetParam
  | 0x38 => frameImm t 8 .ackSetOp
  | 0x39 => frameOnly t .ackGetOp
  | 0x3A => frameString t .ackSetResp
  | 0x3B => frameOnly t .ackGetResp
  | 0x40 => frameString t .ntcSet
  | 0x41 => frameOnly t .ntcGet
  | 0x48 => stringOnly t .expEnc
  | 0x49 => stringOnly t .expDec
  | 0x50 => noFrame t (noImm t (noData t .sndSeq))
  | 0x51 => frameOnly t .sndXmit
  | 0x52 => decodeData t
  | 0x53 => immString t .sndCmd
  | 0x54 => immString t .sndCmdAck
  | 0x55 => immString t .sndAck
  | 0x56 => stringOnly t .sndNotice
  | 0x60 => decodeListen t
  | _ => .error (.unassignedOpsel (opselOf t.word))

/-- The operation of a transaction, or why the command port does not accept it (R89). -/
def decodeCommand (t : Transaction) : Except Reject Instr :=
  if zerosOf t.word = 0 then decodeOpsel t else .error .reservedBits

/-! ### Format HDR24 (R71 to R74, R80) -/

/-- The fields that every header row has. -/
def headerFields (w : BitVec 24) : HeaderFields where
  unused0 := w.extractLsb' 22 2
  length := w.extractLsb' 16 6
  unused1 := w.extractLsb' 14 2
  frag := w.getLsbD 12
  ackReq := w.getLsbD 11
  id := w.extractLsb' 0 8

/-- The header row of a header word, by `type` and, for Data, `ENC` (R80, R84 to R87). Every word has one. -/
def decodeHeader (w : BitVec 24) : Instr :=
  match (w.extractLsb' 8 3).toNat with
  | 0 => if w.getLsbD 13 then .typeDataEnc (headerFields w) else .typeDataRaw (headerFields w)
  | 1 => .typeCommand (w.getLsbD 13) (headerFields w)
  | 2 => .typeAck (w.getLsbD 13) (headerFields w)
  | 3 => .typeNotice (w.getLsbD 13) (headerFields w)
  | _ => .typeReserved (w.extractLsb' 8 2) (w.getLsbD 13) (headerFields w)

/-- The header word of its fields: `uuLLLLLL uuEFATTT IIIIIIII` (R74). -/
def headerWord (type : BitVec 3) (enc : Bool) (h : HeaderFields) : BitVec 24 :=
  h.unused0 ++ h.length ++ h.unused1 ++ BitVec.ofBool enc ++ BitVec.ofBool h.frag ++ BitVec.ofBool h.ackReq ++ type
    ++ h.id

/-- The decoder: what was fetched, as an instruction or a rejection by name. -/
def decode : Fetched → Except Reject Instr
  | .command t => decodeCommand t
  | .header w => .ok (decodeHeader w)

/-! ### The encoder -/

/-- A command without data-in. -/
def encodeWord (opsel : BitVec 8) (sel : Bool) (imm : BitVec 8) : Fetched :=
  .command ⟨commandWord opsel sel imm, []⟩

/-- A command with a byte string on data-in. -/
def encodeString (opsel : BitVec 8) (sel : Bool) (imm : BitVec 8) (s : List (BitVec 8)) : Fetched :=
  .command ⟨commandWord opsel sel imm, stringToPort s⟩

/-- The words of an instruction, from the same tables (R74, R89 to R91). -/
def encode : Instr → Fetched
  | .typeDataRaw h => .header (headerWord 0 false h)
  | .typeDataEnc h => .header (headerWord 0 true h)
  | .typeCommand enc h => .header (headerWord 1 enc h)
  | .typeAck enc h => .header (headerWord 2 enc h)
  | .typeNotice enc h => .header (headerWord 3 enc h)
  | .typeReserved low enc h => .header (headerWord ((1 : BitVec 1) ++ low) enc h)
  | .frmClear f => encodeWord 0x01 (bitOfFrame f) 0
  | .frmPut f b => encodeWord 0x02 (bitOfFrame f) b
  | .frmGet f => encodeWord 0x03 (bitOfFrame f) 0
  | .frmResetLen f n => encodeWord 0x04 (bitOfFrame f) n
  | .frmExtent f => encodeWord 0x05 (bitOfFrame f) 0
  | .frmLd f i => encodeWord 0x06 (bitOfFrame f) (i.setWidth 8)
  | .frmSt f i v => encodeString 0x07 (bitOfFrame f) (i.setWidth 8) [v]
  | .frmMeta f => encodeWord 0x08 (bitOfFrame f) 0
  | .hdrReset f n => encodeWord 0x10 (bitOfFrame f) n
  | .hdrLen f => encodeWord 0x11 (bitOfFrame f) 0
  | .hdrType f => encodeWord 0x12 (bitOfFrame f) 0
  | .hdrEnc f => encodeWord 0x13 (bitOfFrame f) 0
  | .hdrFrag f => encodeWord 0x14 (bitOfFrame f) 0
  | .hdrAckReq f => encodeWord 0x15 (bitOfFrame f) 0
  | .hdrId f => encodeWord 0x16 (bitOfFrame f) 0
  | .hdrSetLen f v => encodeWord 0x17 (bitOfFrame f) v
  | .hdrSetType f t => encodeWord 0x18 (bitOfFrame f) (t.setWidth 8)
  | .hdrSetEnc f b => encodeWord 0x19 (bitOfFrame f) ((BitVec.ofBool b).setWidth 8)
  | .hdrSetFrag f b => encodeWord 0x1A (bitOfFrame f) ((BitVec.ofBool b).setWidth 8)
  | .hdrSetAckReq f b => encodeWord 0x1B (bitOfFrame f) ((BitVec.ofBool b).setWidth 8)
  | .hdrSetId f v => encodeWord 0x1C (bitOfFrame f) v
  | .hdrUpdLen f => encodeWord 0x1D (bitOfFrame f) 0
  | .hdrDispatch f => encodeWord 0x1E (bitOfFrame f) 0
  | .hdrPack f len flags type id => encodeString 0x1F (bitOfFrame f) 0 [len, flags, type, id]
  | .hdrUnpack f => encodeWord 0x20 (bitOfFrame f) 0
  | .datSetRaw f s => encodeString 0x28 (bitOfFrame f) 0 s
  | .datSetEnc f s => encodeString 0x29 (bitOfFrame f) 0 s
  | .datDecode f => encodeWord 0x2A (bitOfFrame f) 0
  | .datGet f => encodeWord 0x2B (bitOfFrame f) 0
  | .cmdSetOp f op => encodeWord 0x30 (bitOfFrame f) op
  | .cmdGetOp f => encodeWord 0x31 (bitOfFrame f) 0
  | .cmdSetParam f s => encodeString 0x32 (bitOfFrame f) 0 s
  | .cmdGetParam f => encodeWord 0x33 (bitOfFrame f) 0
  | .ackSetOp f op => encodeWord 0x38 (bitOfFrame f) op
  | .ackGetOp f => encodeWord 0x39 (bitOfFrame f) 0
  | .ackSetResp f s => encodeString 0x3A (bitOfFrame f) 0 s
  | .ackGetResp f => encodeWord 0x3B (bitOfFrame f) 0
  | .ntcSet f s => encodeString 0x40 (bitOfFrame f) 0 s
  | .ntcGet f => encodeWord 0x41 (bitOfFrame f) 0
  | .expEnc s => encodeString 0x48 false 0 s
  | .expDec s => encodeString 0x49 false 0 s
  | .sndSeq => encodeWord 0x50 false 0
  | .sndXmit f => encodeWord 0x51 (bitOfFrame f) 0
  | .sndData frag enc s =>
      encodeString 0x52 false ((BitVec.ofBool enc ++ BitVec.ofBool frag).setWidth 8) s
  | .sndCmd op s => encodeString 0x53 false op s
  | .sndCmdAck op s => encodeString 0x54 false op s
  | .sndAck op s => encodeString 0x55 false op s
  | .sndNotice s => encodeString 0x56 false 0 s
  | .rcvListen f b => .command ⟨commandWord 0x60 (bitOfFrame f) 0, budgetToPort b⟩

/-! ### Words of the opcode table -/

/-- The data-in bytes that go with a table word, all operand bytes 0: for an operation with operand `s` the empty
string, for `FRM.ST` one byte, for `HDR.PACK` four bytes, for `RCV.LISTEN` a budget of 0; none for the others. The
length prefix is the framing of the port (R91), not a bit of the instruction (notes/assumptions/1). -/
def tableDataIn (opsel : Nat) : List (BitVec 8) :=
  match opsel with
  | 0x07 => stringToPort [0]
  | 0x1F => stringToPort [0, 0, 0, 0]
  | 0x60 => budgetToPort 0
  | 0x28 | 0x29 | 0x32 | 0x3A | 0x40 | 0x48 | 0x49 | 0x52 | 0x53 | 0x54 | 0x55 | 0x56 => stringToPort []
  | _ => []

/-- The transaction of a table word. -/
def tableTransaction (w : Nat) : Transaction :=
  ⟨BitVec.ofNat 24 w, tableDataIn (opselOf (BitVec.ofNat 24 w)).toNat⟩

/-- How a word of the table is laid out: on the command port where it is an operation, as a frame header otherwise.
The two formats use the same 24-bit numbers (notes/assumptions/1). -/
def tableFetched (w : Nat) : Fetched :=
  match decodeCommand (tableTransaction w) with
  | .ok _ => .command (tableTransaction w)
  | .error _ => .header (BitVec.ofNat 24 w)

/-- The instruction the decoder reads from a table word of `nbits` bits (both formats have 24). -/
def decodeTableWord (nbits w : Nat) : Option Instr :=
  if nbits = 24 ∧ w < 2 ^ 24 then
    match decode (tableFetched w) with
    | .ok i => some i
    | .error _ => none
  else none

end Sys2Proof
end

