-- ==== Sys2Proof/Machine/State.lean ====
section
/-! DEFINITION. The state of the PPE (10_state.md), the ports and the environment as plain data, the reasons a step can
stop, and the state after reset. -/

namespace Sys2Proof.Machine

/-- Frame storage as (offset, byte) cells in canonical form: offsets strictly rising, none above 63, no cell that
holds 0. An offset that is not listed reads as 0, the spec's reset content (R36, R341; notes/assumptions/14). -/
abbrev Mem := List Host.Cell

/-- A frame (R20, R21). -/
structure Frame where
  /-- `f.buf`: 64 bytes of storage at offsets 0 to 63 (R50). -/
  buf : List Host.Cell
  /-- `f.wr`: the write cursor, also the frame's extent; 0 to 64. -/
  wr : Fin 65
  /-- `f.rd`: the read cursor; 0 to 64. -/
  rd : Fin 65
  /-- `f.node`: origin node identifier (R24). -/
  node : BitVec 8
  /-- `f.module`: module identifier (R25). -/
  moduleId : BitVec 16
  /-- `f.sig`: received-signal indicator, read as two's complement (R26). -/
  sig : BitVec 8
deriving DecidableEq, Repr

/-- `rx_state` (R33). -/
inductive RxState where
  | idle
  | rxNode
  | rxModule
  | rxSignal
  | rxHeader
  | rxPayload
  | done
deriving DecidableEq, Repr

/-- The status of a result (R300, R301). -/
inductive Status where
  | ok
  | transportError
  | protocolError
  | timeout
deriving DecidableEq, Repr

/-- The cause of a result (R301). `none` is the cause of a success. -/
inductive Cause where
  | none
  | headerMissing
  | lengthRange
  | fieldRange
  | unknownPacketType
  | lengthMismatch
  | emptyPayload
  | badEncoding
  | decodedTooLong
  | lengthZero
  | lengthTooLarge
  | malformedField
  | sendMismatch
  | execFailed
  | busyExceeded
  | budgetExhausted
deriving DecidableEq, Repr

/-- The result of an operation (R13) with its truncation indicator (R29). -/
structure Result where
  status : Status
  cause : Cause
  trunc : Bool
  val : Nat
  out : List (BitVec 8)
deriving DecidableEq, Repr

/-- One call of `T.send`: the string handed over and the count T answered (R11, R60). -/
structure Sent where
  bytes : List (BitVec 8)
  accepted : Nat
deriving DecidableEq, Repr

/-- One call of `T.exec`: the command text and T's answer, none for failure (R11, R259). -/
structure Executed where
  command : List (BitVec 8)
  answer : Option (List (BitVec 8))
deriving DecidableEq, Repr

/-- The transport agent T as the PPE meets it (R11, R39, R40): the model's own data. A script that has run out is
followed by free values of Config (notes/assumptions/8, 9). -/
structure Transport where
  /-- The bytes that can be read now, oldest first (R40). -/
  inbound : List (BitVec 8)
  /-- What arrives before each coming availability query (R63). -/
  arrivals : List (List (BitVec 8))
  /-- The coming answers of `T.send`. -/
  sendAnswers : List Nat
  /-- The coming answers of `T.exec`. -/
  execAnswers : List (Option (List (BitVec 8)))
  /-- The coming answers of `T.byteTime`. -/
  byteTimes : List Nat
  /-- The strings handed to `T.send` so far, oldest first. -/
  sent : List Sent
  /-- The commands handed to `T.exec` so far, oldest first. -/
  executed : List Executed
deriving DecidableEq, Repr

/-- A sample of the reset input `RST` for one step (R340). -/
inductive Rst where
  /-- Not asserted. -/
  | released
  /-- Asserted as the step begins: no operation is accepted, a running one is abandoned. -/
  | asserted
  /-- Asserted while the step's operation runs, after it has made `calls` of its calls of T and of the tick input. -/
  | during (calls : Nat)
deriving DecidableEq, Repr

/-- One call that the PPE makes of the transport or of the tick input (R11). -/
inductive Call where
  | now
  | avail
  | byteTime
  | read
  | exec (command : List (BitVec 8))
  | send (bytes : List (BitVec 8))
deriving DecidableEq, Repr

/-- The state of the machine. -/
structure State where
  /-- `F[0]` (R20). -/
  f0 : Frame
  /-- `F[1]` (R20). -/
  f1 : Frame
  /-- `TXF`, the sender's scratch frame (R20). -/
  txf : Frame
  /-- `SEQ` (R30). -/
  seq : BitVec 8
  /-- `rx_state` (R33). -/
  rxState : RxState
  /-- `rx_budget` (R31). -/
  rxBudget : BitVec 31
  /-- `rx_unbounded` (R31). -/
  rxUnbounded : Bool
  /-- `rx_last` (R32). -/
  rxLast : BitVec 32
  /-- `rx_extended` (R34). -/
  rxExtended : Bool
  /-- A `RCV.LISTEN` is running and the command port is closed (R63); notes/assumptions/5. -/
  listening : Bool
  /-- The frame that `RCV.LISTEN` receives into (R241); notes/assumptions/5. -/
  rxFrame : FrameSel
  /-- What the host presents on the command and data-in ports, in order (R91); notes/assumptions/3. -/
  host : List Transaction
  /-- The result and data-out ports after the last completed operation (R91); notes/assumptions/12. -/
  result : Option Result
  /-- The coming answers of `now()` (R11, R320); notes/assumptions/8. -/
  ticks : List (BitVec 32)
  /-- The samples of the reset input at the coming steps (R340); notes/assumptions/10. -/
  rst : List Rst
  /-- The transport agent (R11). -/
  t : Transport
  /-- How many free values have been drawn; notes/assumptions/8. -/
  draws : Nat
  /-- The OPEN parameters of R7, constant; notes/assumptions/7. -/
  cfg : Config.Params
deriving DecidableEq, Repr

/-- Why a step stops with a fault. No operation of the spec faults (R300: no condition is fatal; R52: no access is
out of range). -/
inductive Fault where
  /-- Raised by TYPE.COMMAND alone, when the header it executes has length 62 or 63 and the frame carries OPC_EXEC: the
  command string would reach past offset 63, and there is no such byte (R52). No run gets there, because the receiver
  rejects those lengths before the frame is complete (R255). Safe: the model stops. -/
  | outsideFrame (offset : Nat)
deriving DecidableEq, Repr

/-- Why a step refuses. -/
inductive Refusal where
  /-- Raised by exec's arm of an instruction that has no meaning in the model. Safe: the model stops. No arm
  raises it now. -/
  | notModelled (mnemonic : String)
  /-- Raised by step when the command port is presented with a word, or data-in bytes, that are no operation: the word
  is not accepted, no state changes and no result is produced (R89, R91, U9). Safe: the model stops. -/
  | notAccepted (why : Reject)
deriving DecidableEq, Repr

/-- A frame after reset (R341); its metadata, which the spec leaves unspecified, at 0 (notes/assumptions/6). -/
def Frame.reset : Frame where
  buf := []
  wr := 0
  rd := 0
  node := 0
  moduleId := 0
  sig := 0

/-- The transport before anything is known of it: nothing pending, no script. -/
def Transport.unknown : Transport where
  inbound := []
  arrivals := []
  sendAnswers := []
  execAnswers := []
  byteTimes := []
  sent := []
  executed := []

/-- The machine right after reset (R36, R340 to R345). -/
def State.reset : State where
  f0 := Frame.reset
  f1 := Frame.reset
  txf := Frame.reset
  seq := Config.seqReset
  rxState := .idle
  rxBudget := 0
  rxUnbounded := false
  rxLast := 0
  rxExtended := false
  listening := false
  rxFrame := .f0
  host := []
  result := none
  ticks := []
  rst := []
  t := Transport.unknown
  draws := 0
  cfg := ⟨Config.wireProfile, Config.opcExec⟩

end Sys2Proof.Machine
end

