-- ==== Sys2Proof/Machine/Memory.lean ====
section
/-! DEFINITION. Frame storage: reading and writing bytes of a list of cells in canonical form (R50 to R53). -/

namespace Sys2Proof.Machine

/-- The byte at an offset; an offset that is not listed holds 0. -/
def Mem.read : List Host.Cell → Nat → BitVec 8
  | [], _ => 0
  | (k, b) :: r, a => if k = a then b else Mem.read r a

/-- The storage after a byte is written; a cell that would hold 0 is not listed. -/
def Mem.write : List Host.Cell → Nat → BitVec 8 → List Host.Cell
  | [], a, v => if v = 0 then [] else [(a, v)]
  | (k, b) :: r, a, v =>
    if k < a then (k, b) :: Mem.write r a v
    else if k = a then (if v = 0 then r else (a, v) :: r)
    else if v = 0 then (k, b) :: r else (a, v) :: (k, b) :: r

/-- `MemWrite` (R10): a byte string written at rising offsets (R51). -/
def Mem.writeAll : List Host.Cell → Nat → List (BitVec 8) → List Host.Cell
  | m, _, [] => m
  | m, a, b :: s => Mem.writeAll (Mem.write m a b) (a + 1) s

/-- `MemRead` (R10): the `n` bytes from offset `a` on. -/
def Mem.slice : List Host.Cell → Nat → Nat → List (BitVec 8)
  | _, _, 0 => []
  | m, a, n + 1 => Mem.read m a :: Mem.slice m (a + 1) n

/-- The canonical form from offset `lo` on: offsets strictly rising and below 64, no cell that holds 0. -/
def Mem.wfFrom : Nat → List Host.Cell → Bool
  | _, [] => true
  | lo, (k, b) :: r => decide (lo ≤ k) && decide (k < 64) && decide (b ≠ 0) && Mem.wfFrom (k + 1) r

/-- The canonical form. -/
def Mem.wf (m : List Host.Cell) : Bool := Mem.wfFrom 0 m

end Sys2Proof.Machine
end

