-- ==== Sys2Proof/Machine/Flags.lean ====
section
/-! DEFINITION. The header: its fields and flags as bits of the bytes at offsets 0, 1 and 2 (R71 to R77), the mutators
of one field, packing and unpacking (R75, R76), and the truncation indicator of a result (R29, R308). -/

namespace Sys2Proof.Machine

/-- `length`: bits 5 to 0 of byte 0 (R71). -/
def lengthBits (b0 : BitVec 8) : BitVec 6 := b0.extractLsb' 0 6

/-- `type`: bits 2 to 0 of byte 1 (R72). -/
def typeBits (b1 : BitVec 8) : BitVec 3 := b1.extractLsb' 0 3

/-- `ENC`: bit 5 of byte 1 (R72). -/
def encBit (b1 : BitVec 8) : Bool := b1.getLsbD 5

/-- `FRAG`: bit 4 of byte 1 (R72). -/
def fragBit (b1 : BitVec 8) : Bool := b1.getLsbD 4

/-- `ACKREQ`: bit 3 of byte 1 (R72). -/
def ackReqBit (b1 : BitVec 8) : Bool := b1.getLsbD 3

/-- `ENC <- v`, the other bits kept (R132). -/
def putEnc (v : Bool) (b1 : BitVec 8) : BitVec 8 := if v then b1 ||| 0x20 else b1 &&& 0xDF

/-- `FRAG <- v`, the other bits kept (R133). -/
def putFrag (v : Bool) (b1 : BitVec 8) : BitVec 8 := if v then b1 ||| 0x10 else b1 &&& 0xEF

/-- `ACKREQ <- v`, the other bits kept (R134). -/
def putAckReq (v : Bool) (b1 : BitVec 8) : BitVec 8 := if v then b1 ||| 0x08 else b1 &&& 0xF7

/-- The type is replaced, not ORed; the other bits are kept (R131). -/
def putType (t : BitVec 3) (b1 : BitVec 8) : BitVec 8 := (b1 &&& 0xF8) ||| t.setWidth 8

/-- The flags in the order of R128 and R137: `ENC` in bit 2, `FRAG` in bit 1, `ACKREQ` in bit 0. -/
def flagsByte (enc frag ack : Bool) : BitVec 8 :=
  (BitVec.ofBool enc ++ BitVec.ofBool frag ++ BitVec.ofBool ack).setWidth 8

/-- Byte 1 of a packed header (R75): the unused bits are 0. -/
def packByte1 (enc frag ack : Bool) (type : BitVec 3) : BitVec 8 :=
  ((BitVec.ofBool enc ++ BitVec.ofBool frag ++ BitVec.ofBool ack) ++ type).setWidth 8

/-- `hdr_pack` (R75). -/
def hdrPack (len : BitVec 6) (enc frag ack : Bool) (type : BitVec 3) (id : BitVec 8) : List (BitVec 8) :=
  [len.setWidth 8, packByte1 enc frag ack type, id]

/-- `hdr_unpack` (R76) laid out as `HDR.UNPACK` returns it (R128): length, flags, type, identifier. -/
def hdrUnpack (b0 b1 b2 : BitVec 8) : List (BitVec 8) :=
  [(lengthBits b0).setWidth 8, flagsByte (encBit b1) (fragBit b1) (ackReqBit b1), (typeBits b1).setWidth 8, b2]

/-- `trunc` of an operation that took `given` bytes and stored or consumed `used` (R29, R308). -/
def truncated (used given : Nat) : Bool := decide (used < given)

end Sys2Proof.Machine
end

