-- ==== Sys2Proof/Machine/Operands.lean ====
section
/-! DEFINITION. Operand forms: the frame an operation names (R79), header fields of a frame, the payload of a frame,
hexadecimal text (R78), the sign of the budget (R246) and of the signal indicator (R26). -/

namespace Sys2Proof.Machine

/-- The frame register `F[f]`. -/
def State.frame (s : State) : FrameSel → Frame
  | .f0 => s.f0
  | .f1 => s.f1

/-- `F[f]` replaced. -/
def State.setFrame (s : State) (f : FrameSel) (x : Frame) : State :=
  match f with
  | .f0 => { s with f0 := x }
  | .f1 => { s with f1 := x }

/-- `f.buf[i]` (R10). -/
def Frame.byte (x : Frame) (i : Nat) : BitVec 8 := Mem.read x.buf i

/-- The header's `length` field (R71). -/
def Frame.lengthField (x : Frame) : Nat := (lengthBits (x.byte 0)).toNat

/-- `f.buf[a..a+n)` (R10). -/
def Frame.bytes (x : Frame) (a n : Nat) : List (BitVec 8) := Mem.slice x.buf a n

/-- The payload that the header's `length` names: `f.buf[3..3+n)` (R150). -/
def Frame.payload (x : Frame) : List (BitVec 8) := x.bytes 3 x.lengthField

/-- The string of a Command or Ack: `f.buf[4..3+n)` (R86, R158). -/
def Frame.paramString (x : Frame) : List (BitVec 8) := x.bytes 4 (x.lengthField - 1)

/-- The frame's content `f.buf[0..f.wr)`, what `T.send` is given (R211). -/
def Frame.content (x : Frame) : List (BitVec 8) := x.bytes 0 x.wr.val

/-- The header as the 24-bit number of R74. -/
def Frame.headerWord (x : Frame) : BitVec 24 := x.byte 0 ++ x.byte 1 ++ x.byte 2

/-- `hexval` (R78): upper and lower case digits; none on any other byte. -/
def hexval (c : BitVec 8) : Option Nat :=
  let n := c.toNat
  if 0x30 ≤ n ∧ n ≤ 0x39 then some (n - 0x30)
  else if 0x41 ≤ n ∧ n ≤ 0x46 then some (n - 0x41 + 10)
  else if 0x61 ≤ n ∧ n ≤ 0x66 then some (n - 0x61 + 10)
  else none

/-- `hex2` (R78): two digits, the most significant first. -/
def hex2 (c1 c0 : BitVec 8) : Option (BitVec 8) :=
  match hexval c1, hexval c0 with
  | some h1, some h0 => some (BitVec.ofNat 8 (16 * h1 + h0))
  | _, _ => none

/-- `hex4` (R78): four digits, the most significant first. -/
def hex4 (c3 c2 c1 c0 : BitVec 8) : Option (BitVec 16) :=
  match hexval c3, hexval c2, hexval c1, hexval c0 with
  | some h3, some h2, some h1, some h0 => some (BitVec.ofNat 16 (4096 * h3 + 256 * h2 + 16 * h1 + h0))
  | _, _, _, _ => none

/-- The signal indicator as a number: `sext_8` (R12, R26). -/
def Frame.signal (x : Frame) : Int := x.sig.toInt

/-- A budget that is negative as two's complement is unbounded (R242, R246). -/
def unboundedBudget (b : BitVec 32) : Bool := b.msb

end Sys2Proof.Machine
end

