-- ==== Sys2Proof/Machine/Codec.lean ====
section
/-! DEFINITION. The expansion codec of PPE-1 (R190 to R194): base64 with padding, the spec's choice from general
knowledge (D15, G4; notes/assumptions/15). -/

namespace Sys2Proof.Machine

/-- The pad character `=` (R193). -/
def padChar : BitVec 8 := 0x3D

/-- `alpha(v)` (R193): the character of a 6-bit value. -/
def alpha (v : BitVec 6) : BitVec 8 :=
  let n := v.toNat
  if n < 26 then BitVec.ofNat 8 (0x41 + n)
  else if n < 52 then BitVec.ofNat 8 (0x61 + (n - 26))
  else if n < 62 then BitVec.ofNat 8 (0x30 + (n - 52))
  else if n = 62 then 0x2B
  else 0x2F

/-- `index(c)` (R193): the inverse of `alpha`; none on every byte outside the alphabet, `=` included. -/
def alphaIndex (c : BitVec 8) : Option (BitVec 6) :=
  let n := c.toNat
  if 0x41 ≤ n ∧ n ≤ 0x5A then some (BitVec.ofNat 6 (n - 0x41))
  else if 0x61 ≤ n ∧ n ≤ 0x7A then some (BitVec.ofNat 6 (n - 0x61 + 26))
  else if 0x30 ≤ n ∧ n ≤ 0x39 then some (BitVec.ofNat 6 (n - 0x30 + 52))
  else if n = 0x2B then some 62
  else if n = 0x2F then some 63
  else none

/-- First index of a group: `a[7:2]`. -/
def sextet0 (a : BitVec 8) : BitVec 6 := a.extractLsb' 2 6

/-- Second index: `a[1:0]*16 + b[7:4]`. -/
def sextet1 (a b : BitVec 8) : BitVec 6 := a.extractLsb' 0 2 ++ b.extractLsb' 4 4

/-- Third index: `b[3:0]*4 + c[7:6]`. -/
def sextet2 (b c : BitVec 8) : BitVec 6 := b.extractLsb' 0 4 ++ c.extractLsb' 6 2

/-- Fourth index: `c[5:0]`. -/
def sextet3 (c : BitVec 8) : BitVec 6 := c.extractLsb' 0 6

/-- First byte of a group: `v0*4 + v1[5:4]`. -/
def octet0 (v0 v1 : BitVec 6) : BitVec 8 := v0 ++ v1.extractLsb' 4 2

/-- Second byte: `v1[3:0]*16 + v2[5:2]`. -/
def octet1 (v1 v2 : BitVec 6) : BitVec 8 := v1.extractLsb' 0 4 ++ v2.extractLsb' 2 4

/-- Third byte: `v2[1:0]*64 + v3`. -/
def octet2 (v2 v3 : BitVec 6) : BitVec 8 := v2.extractLsb' 0 2 ++ v3

/-- `exp_enc` (R191): groups of three bytes from the front, the last group padded. -/
def expEncode : List (BitVec 8) → List (BitVec 8)
  | [] => []
  | [a] => [alpha (sextet0 a), alpha (sextet1 a 0), padChar, padChar]
  | [a, b] => [alpha (sextet0 a), alpha (sextet1 a b), alpha (sextet2 b 0), padChar]
  | a :: b :: c :: r =>
    alpha (sextet0 a) :: alpha (sextet1 a b) :: alpha (sextet2 b c) :: alpha (sextet3 c) :: expEncode r

/-- A group of four characters without padding. -/
def decodeGroup (e0 e1 e2 e3 : BitVec 8) : Option (List (BitVec 8)) :=
  match alphaIndex e0, alphaIndex e1, alphaIndex e2, alphaIndex e3 with
  | some v0, some v1, some v2, some v3 => some [octet0 v0 v1, octet1 v1 v2, octet2 v2 v3]
  | _, _, _, _ => none

/-- The last group: `pad` is 2 where it ends `==`, 1 where it ends `=`, else 0 (R192). The low bits of the last
index that carry no data are ignored. -/
def decodeLastGroup (e0 e1 e2 e3 : BitVec 8) : Option (List (BitVec 8)) :=
  if e3 = padChar then
    if e2 = padChar then
      match alphaIndex e0, alphaIndex e1 with
      | some v0, some v1 => some [octet0 v0 v1]
      | _, _ => none
    else
      match alphaIndex e0, alphaIndex e1, alphaIndex e2 with
      | some v0, some v1, some v2 => some [octet0 v0 v1, octet1 v1 v2]
      | _, _, _ => none
  else decodeGroup e0 e1 e2 e3

/-- `exp_dec` (R192): none on a length that is not a multiple of 4, and on any byte outside the alphabet before the
padding of the last group. -/
def expDecode : List (BitVec 8) → Option (List (BitVec 8))
  | [] => some []
  | e0 :: e1 :: e2 :: e3 :: r =>
    if r = [] then decodeLastGroup e0 e1 e2 e3
    else
      match decodeGroup e0 e1 e2 e3, expDecode r with
      | some g, some d => some (g ++ d)
      | _, _ => none
  | _ => none

end Sys2Proof.Machine
end

