-- ==== Sys2Proof/Machine/Ops.lean ====
section
/-! DEFINITION. The operations that the meanings share: on one frame (R100 to R107, R120, R130, R150 to R168), on the
result port (R13, R300, R301, R313), on the inputs (R11, R320), on the sender (R210 to R212), fetching an instruction
and the reset input (R340). -/

namespace Sys2Proof.Machine

/-! ### Cursors and storage of one frame -/

/-- A cursor value, clamped to the capacity: `min(n, 64)` (R103). -/
def cursor (n : Nat) : Fin 65 := ⟨min n 64, by omega⟩

/-- `f.buf[i] <- v`. -/
def Frame.setByte (x : Frame) (i : Nat) (v : BitVec 8) : Frame := { x with buf := Mem.write x.buf i v }

/-- A byte string stored at rising offsets from `a` on. -/
def Frame.store (x : Frame) (a : Nat) (s : List (BitVec 8)) : Frame := { x with buf := Mem.writeAll x.buf a s }

/-- `clear(f)` (R100): storage zero, both cursors 0; the metadata are kept (R27). -/
def Frame.clear (x : Frame) : Frame := { x with buf := [], wr := 0, rd := 0 }

/-- `put(f, b)` (R101): appends one byte if capacity remains. -/
def Frame.put (x : Frame) (b : BitVec 8) : Frame :=
  if x.wr.val < 64 then { x.setByte x.wr.val b with wr := cursor (x.wr.val + 1) } else x

/-- `resetlen(f, n)` (R103): the write cursor becomes `min(n, 64)`, the read cursor is clamped to it. -/
def Frame.resetLen (x : Frame) (n : Nat) : Frame := { x with wr := cursor n, rd := min x.rd (cursor n) }

/-- The frame holds the header bytes (R121). -/
def Frame.hasHeader (x : Frame) : Bool := decide (3 ≤ x.wr.val)

/-- `updlen(f)` (R130): `length` becomes the payload extent, bits 7 and 6 of byte 0 become 0. -/
def Frame.updLen (x : Frame) : Frame := x.setByte 0 (BitVec.ofNat 8 (x.wr.val - 3))

/-- Byte 1 rewritten, one atomic read-modify-write (R51). -/
def Frame.mapByte1 (x : Frame) (g : BitVec 8 → BitVec 8) : Frame := x.setByte 1 (g (x.byte 1))

/-- `set_extent(f, n)` (R168). -/
def Frame.setExtent (x : Frame) (n : Nat) : Frame := x.resetLen (3 + n)

/-! ### Payload setters of the variants (R151, R152, R155, R157, R165) -/

/-- Bytes `DAT.SETRAW` stores of `len` given. -/
def rawCount (len : Nat) : Nat := min len Config.maxPayload

/-- Input bytes `DAT.SETENC` and `EXP.ENC` consume of `len` given. -/
def encCount (len : Nat) : Nat := min len Config.maxRawEnc

/-- String bytes `CMD.SETPARAM` and `ACK.SETRESP` store of `len` given. -/
def paramCount (len : Nat) : Nat := min len Config.paramCap

/-- String bytes `NTC.SET` stores of `len` given. -/
def noticeCount (len : Nat) : Nat := min len Config.noticeCap

/-- The effect of `DAT.SETRAW` (R151). -/
def Frame.setRaw (x : Frame) (s : List (BitVec 8)) : Frame :=
  (((x.setExtent (rawCount s.length)).store 3 (s.take (rawCount s.length))).mapByte1 (putEnc false)).updLen

/-- The effect of `DAT.SETENC` (R152). -/
def Frame.setEncoded (x : Frame) (s : List (BitVec 8)) : Frame :=
  (((x.setExtent (expEncode (s.take (encCount s.length))).length).store 3
    (expEncode (s.take (encCount s.length)))).mapByte1 (putEnc true)).updLen

/-- The effect of a `DAT.DECODE` that succeeds with the bytes `d` (R153). The bytes between the new and the old extent
are not touched (U4). -/
def Frame.setDecoded (x : Frame) (d : List (BitVec 8)) : Frame :=
  (((x.store 3 d).resetLen (3 + d.length)).mapByte1 (putEnc false)).updLen

/-- The effect of `CMD.SETOP` and `ACK.SETOP` (R155, R160). -/
def Frame.setOpcode (x : Frame) (op : BitVec 8) : Frame :=
  ((if x.wr.val < 4 then x.resetLen 4 else x).setByte 3 op).updLen

/-- The effect of `CMD.SETPARAM` and `ACK.SETRESP` (R157, R162). -/
def Frame.setString (x : Frame) (s : List (BitVec 8)) : Frame :=
  ((x.setExtent (1 + paramCount s.length)).store 4 (s.take (paramCount s.length))).updLen

/-- The effect of `NTC.SET` (R165). -/
def Frame.setNotice (x : Frame) (s : List (BitVec 8)) : Frame :=
  ((x.setExtent (noticeCount s.length)).store 3 (s.take (noticeCount s.length))).updLen

/-- `build(t)` (R212): a fresh header-only frame of type `t`, all flags 0. -/
def Frame.build (x : Frame) (type : BitVec 3) : Frame := ((x.clear).resetLen 3).setByte 1 (type.setWidth 8)

/-! ### Results (R13, R300, R301, R313) -/

/-- The 2-bit code of a status (R301). -/
def statusCode : Status → BitVec 2
  | .ok => 0
  | .transportError => 1
  | .protocolError => 2
  | .timeout => 3

/-- The 5-bit code of a cause (R301). -/
def causeCode : Cause → BitVec 5
  | .none => 0
  | .headerMissing => 1
  | .lengthRange => 2
  | .fieldRange => 3
  | .unknownPacketType => 4
  | .lengthMismatch => 5
  | .emptyPayload => 6
  | .badEncoding => 7
  | .decodedTooLong => 8
  | .lengthZero => 9
  | .lengthTooLarge => 10
  | .malformedField => 11
  | .sendMismatch => 16
  | .execFailed => 17
  | .busyExceeded => 18
  | .budgetExhausted => 24

/-- The status that a cause belongs to (R301). -/
def statusOf : Cause → Status
  | .none => .ok
  | .headerMissing => .protocolError
  | .lengthRange => .protocolError
  | .fieldRange => .protocolError
  | .unknownPacketType => .protocolError
  | .lengthMismatch => .protocolError
  | .emptyPayload => .protocolError
  | .badEncoding => .protocolError
  | .decodedTooLong => .protocolError
  | .lengthZero => .protocolError
  | .lengthTooLarge => .protocolError
  | .malformedField => .protocolError
  | .sendMismatch => .transportError
  | .execFailed => .transportError
  | .busyExceeded => .transportError
  | .budgetExhausted => .timeout

/-- The 3-bit code of a receiver state (R33). -/
def rxStateCode : RxState → BitVec 3
  | .idle => 0
  | .rxNode => 1
  | .rxModule => 2
  | .rxSignal => 3
  | .rxHeader => 4
  | .rxPayload => 5
  | .done => 6

/-- A success: `return OK(val, out)` (R13). -/
def okResult (val : Nat) (out : List (BitVec 8)) (trunc : Bool) : Result := ⟨.ok, .none, trunc, val, out⟩

/-- An error: `raise E(cause)` (R13). Only a composite send can have cut a string before it (notes/assumptions/11). -/
def errorResult (c : Cause) (val : Nat) (trunc : Bool := false) : Result := ⟨statusOf c, c, trunc, val, []⟩

/-- `val` on the 16-bit result port (R91); a free value where it does not fit (notes/assumptions/12). -/
def Result.portVal (r : Result) : BitVec 16 :=
  if r.val < 65536 then BitVec.ofNat 16 r.val else Config.wideVal r.val

/-- The data-out port: `out` behind its length prefix (R91). -/
def Result.dataOut (r : Result) : List (BitVec 8) := stringToPort r.out

/-- An operation ends with success (R13). -/
def State.answer (s : State) (val : Nat) (out : List (BitVec 8) := []) (trunc : Bool := false) : State :=
  { s with result := some (okResult val out trunc) }

/-- Taking an error (R300, R313): the operation ends and its result carries the status and the cause. No other state
changes; control goes nowhere. -/
def State.raise (s : State) (c : Cause) (val : Nat := 0) (trunc : Bool := false) : State :=
  { s with result := some (errorResult c val trunc) }

/-- `need_header(f)` (R121): the operation goes on with the frame, or raises `HeaderMissing`. -/
def State.needHeader (s : State) (f : FrameSel) (k : Frame → State) : State :=
  if (s.frame f).hasHeader then k (s.frame f) else s.raise .headerMissing

/-- `payload_window(f)` (R150): the operation goes on with the frame and its payload length, or raises
`HeaderMissing` or `LengthMismatch`. -/
def State.payloadWindow (s : State) (f : FrameSel) (k : Frame → Nat → State) : State :=
  s.needHeader f fun x =>
    if x.wr.val < 3 + x.lengthField then s.raise .lengthMismatch else k x x.lengthField

/-! ### Inputs (R11, R320; notes/assumptions/8) -/

/-- `now()`: one tick sample. -/
def State.now (s : State) : BitVec 32 × State :=
  match s.ticks with
  | t :: r => (t, { s with ticks := r })
  | [] => (Config.freeTick s.draws, { s with draws := s.draws + 1 })

/-- The arrivals before a `T.avail` query (R63): afterwards `t.inbound` is what can be read. -/
def State.arrive (s : State) : State :=
  match s.t.arrivals with
  | a :: r => { s with t := { s.t with arrivals := r, inbound := s.t.inbound ++ a } }
  | [] => { s with t := { s.t with inbound := s.t.inbound ++ Config.freeArrival s.draws }, draws := s.draws + 1 }

/-- `T.byteTime()`. -/
def State.byteTime (s : State) : Nat × State :=
  match s.t.byteTimes with
  | b :: r => (b, { s with t := { s.t with byteTimes := r } })
  | [] => (Config.freeByteTime s.draws, { s with draws := s.draws + 1 })

/-- T's answer to a `T.send`. -/
def State.sendAnswer (s : State) : Nat × State :=
  match s.t.sendAnswers with
  | a :: r => (a, { s with t := { s.t with sendAnswers := r } })
  | [] => (Config.freeAccepted s.draws, { s with draws := s.draws + 1 })

/-- `T.send(b)` (R60): the string is handed over, T answers a count. -/
def State.send (s : State) (b : List (BitVec 8)) : Nat × State :=
  (s.sendAnswer.1,
    { s.sendAnswer.2 with
      t := { s.sendAnswer.2.t with sent := s.sendAnswer.2.t.sent ++ [⟨b, s.sendAnswer.1⟩] } })

/-- T's answer to a `T.exec`. -/
def State.execAnswer (s : State) : Option (List (BitVec 8)) × State :=
  match s.t.execAnswers with
  | a :: r => (a, { s with t := { s.t with execAnswers := r } })
  | [] => (Config.freeExec s.draws, { s with draws := s.draws + 1 })

/-- `T.exec(c)` (R60, R259): the module executes a command and T answers a response or failure. -/
def State.execModule (s : State) (c : List (BitVec 8)) : Option (List (BitVec 8)) × State :=
  (s.execAnswer.1,
    { s.execAnswer.2 with
      t := { s.execAnswer.2.t with executed := s.execAnswer.2.t.executed ++ [⟨c, s.execAnswer.1⟩] } })

/-! ### The sender (R210 to R212, R217) -/

/-- `assign_seq()` (R210), the state after it; the value returned is `SEQ` before it. -/
def State.bumpSeq (s : State) : State := { s with seq := s.seq + 1 }

/-- The frame that `xmit` hands over: the identifier is `SEQ` (R211). -/
def State.stamped (s : State) (x : Frame) : Frame := x.setByte 2 s.seq

/-- `xmit` of `F[f]` from the identifier on (R211): the count T accepted and the state after it. -/
def State.xmitFrame (s : State) (f : FrameSel) : Nat × State :=
  ((s.bumpSeq).setFrame f (s.stamped (s.frame f))).send (s.stamped (s.frame f)).content

/-- `xmit(TXF)` for the frame `x` just built (R211): `TXF` keeps it, identifier included (R220). -/
def State.xmitTxf (s : State) (x : Frame) : Nat × State :=
  ({ s.bumpSeq with txf := s.stamped x }).send (s.stamped x).content

/-- The end of a composite send of one frame (R215 to R218): success with `val`, or `SendMismatch` with the same `val`.
`trunc` says in both whether the string was cut (R29; notes/assumptions/11). -/
def State.sendBuilt (s : State) (x : Frame) (val : Nat) (trunc : Bool) : State :=
  if (s.xmitTxf x).1 = x.wr.val then (s.xmitTxf x).2.answer val [] trunc
  else (s.xmitTxf x).2.raise .sendMismatch val trunc

/-- The Ack that `send_ack(op, r)` builds in `TXF` (R217, R260). -/
def State.ackFrame (s : State) (op : BitVec 8) (r : List (BitVec 8)) : Frame :=
  (((s.txf).build 2).setOpcode op).setString r

/-- The frame of one round of `SND.DATA` (R213): `rest` is what is left to send. -/
def State.dataFrame (s : State) (fragment encode : Bool) (rest : List (BitVec 8)) (more : Bool) : Frame :=
  let x := if encode then ((s.txf).build 0).setEncoded rest else ((s.txf).build 0).setRaw rest
  if more || fragment then x.mapByte1 (putFrag true) else x

/-- Input bytes one frame of `SND.DATA` carries of `len` left (R213): at most 45 encoded, at most 61 raw. -/
def dataCount (encode : Bool) (len : Nat) : Nat := if encode then encCount len else rawCount len

/-! ### Fetching an instruction -/

/-- What the machine executes next, with the state in which it is executed: the header of the completed frame while
`rx_state` is `Done` (R257), the word on the command port while no operation runs (R63, R89). -/
def State.fetch (s : State) : Option (Fetched × State) :=
  if s.listening then
    if s.rxState = .done then some (.header (s.frame s.rxFrame).headerWord, s) else none
  else
    match s.host with
    | t :: r => some (.command t, { s with host := r })
    | [] => none

/-! ### The reset input (R340) -/

/-- The sample of `RST` at this step, and the state without it. -/
def State.sampleRst (s : State) : Rst × State :=
  match s.rst with
  | b :: r => (b, { s with rst := r })
  | [] => (.released, s)

/-- `RST` asserted (R340): every register of the PPE at its reset value, a running operation abandoned without a
result. The transport, the ticks, what the host presents and the parameters are not the PPE's and stay (R346, R347). -/
def State.resetPulse (s : State) : State :=
  { State.reset with host := s.host, ticks := s.ticks, rst := s.rst, t := s.t, draws := s.draws, cfg := s.cfg }

end Sys2Proof.Machine
end

