-- ==== Sys2Proof/Machine/Ack.lean ====
section
/-! DEFINITION. Meanings of the Ack operations ACK (R160 to R163). -/

namespace Sys2Proof.Machine

/-- `ACK.SETOP f, op` (R160): a frame that is too short grows to four bytes. -/
def execAckSetOp (f : FrameSel) (op : BitVec 8) (s : State) : Host.Outcome State Fault Refusal :=
  .next ((s.setFrame f ((s.frame f).setOpcode op)).answer op.toNat)

/-- `ACK.GETOP f` (R161). -/
def execAckGetOp (f : FrameSel) (s : State) : Host.Outcome State Fault Refusal :=
  .next (s.payloadWindow f fun x n =>
    if n = 0 then s.raise .emptyPayload else s.answer (x.byte 3).toNat)

/-- `ACK.SETRESP f, s` (R162): at most 60 bytes after the opcode, which is not written. -/
def execAckSetResp (f : FrameSel) (b : List (BitVec 8)) (s : State) : Host.Outcome State Fault Refusal :=
  .next ((s.setFrame f ((s.frame f).setString b)).answer (paramCount b.length) []
    (truncated (paramCount b.length) b.length))

/-- `ACK.GETRESP f` (R163): the string and one 0x00 after it (R159). -/
def execAckGetResp (f : FrameSel) (s : State) : Host.Outcome State Fault Refusal :=
  .next (s.payloadWindow f fun x n =>
    if n = 0 then s.raise .emptyPayload else s.answer (n - 1) (x.paramString ++ [0]))

end Sys2Proof.Machine
end

