-- ==== Sys2Proof/Machine/Cmd.lean ====
section
/-! DEFINITION. Meanings of the Command operations CMD (R155 to R158). -/

namespace Sys2Proof.Machine

/-- `CMD.SETOP f, op` (R155): a frame that is too short grows to four bytes. -/
def execCmdSetOp (f : FrameSel) (op : BitVec 8) (s : State) : Host.Outcome State Fault Refusal :=
  .next ((s.setFrame f ((s.frame f).setOpcode op)).answer op.toNat)

/-- `CMD.GETOP f` (R156). -/
def execCmdGetOp (f : FrameSel) (s : State) : Host.Outcome State Fault Refusal :=
  .next (s.payloadWindow f fun x n =>
    if n = 0 then s.raise .emptyPayload else s.answer (x.byte 3).toNat)

/-- `CMD.SETPARAM f, s` (R157): at most 60 bytes after the opcode, which is not written. -/
def execCmdSetParam (f : FrameSel) (b : List (BitVec 8)) (s : State) : Host.Outcome State Fault Refusal :=
  .next ((s.setFrame f ((s.frame f).setString b)).answer (paramCount b.length) []
    (truncated (paramCount b.length) b.length))

/-- `CMD.GETPARAM f` (R158): the string and one 0x00 after it (R159). -/
def execCmdGetParam (f : FrameSel) (s : State) : Host.Outcome State Fault Refusal :=
  .next (s.payloadWindow f fun x n =>
    if n = 0 then s.raise .emptyPayload else s.answer (n - 1) (x.paramString ++ [0]))

end Sys2Proof.Machine
end

