-- ==== Sys2Proof/Machine/Dat.lean ====
section
/-! DEFINITION. Meanings of the Data operations DAT (R151 to R154). -/

namespace Sys2Proof.Machine

/-- `DAT.SETRAW f, s` (R151). -/
def execDatSetRaw (f : FrameSel) (b : List (BitVec 8)) (s : State) : Host.Outcome State Fault Refusal :=
  .next ((s.setFrame f ((s.frame f).setRaw b)).answer (rawCount b.length) []
    (truncated (rawCount b.length) b.length))

/-- `DAT.SETENC f, s` (R152): `val` is the count of input bytes consumed. -/
def execDatSetEnc (f : FrameSel) (b : List (BitVec 8)) (s : State) : Host.Outcome State Fault Refusal :=
  .next ((s.setFrame f ((s.frame f).setEncoded b)).answer (encCount b.length) []
    (truncated (encCount b.length) b.length))

/-- The decoding arm of `DAT.DECODE` (R153), once the flag is set and the window is checked. -/
def decodeInPlace (f : FrameSel) (x : Frame) (s : State) : State :=
  match expDecode x.payload with
  | none => s.raise .badEncoding
  | some d =>
    if Config.maxRawEnc < d.length then s.raise .decodedTooLong
    else (s.setFrame f (x.setDecoded d)).answer d.length

/-- `DAT.DECODE f` (R153): a no-op when `ENC` is clear; a failing decode changes nothing. -/
def execDatDecode (f : FrameSel) (s : State) : Host.Outcome State Fault Refusal :=
  .next (s.needHeader f fun x =>
    if encBit (x.byte 1) then s.payloadWindow f fun y _ => decodeInPlace f y s
    else s.answer x.lengthField)

/-- `DAT.GET f` (R154): the payload as stored. -/
def execDatGet (f : FrameSel) (s : State) : Host.Outcome State Fault Refusal :=
  .next (s.payloadWindow f fun x n => s.answer n x.payload)

end Sys2Proof.Machine
end

