-- ==== Sys2Proof/Machine/Exp.lean ====
section
/-! DEFINITION. Meanings of the codec operations EXP (R195, R196). They read and write no state. -/

namespace Sys2Proof.Machine

/-- `EXP.ENC s` (R195): the first 45 bytes. -/
def execExpEnc (b : List (BitVec 8)) (s : State) : Host.Outcome State Fault Refusal :=
  .next (s.answer (encCount b.length) (expEncode (b.take (encCount b.length)))
    (truncated (encCount b.length) b.length))

/-- `EXP.DEC s` (R196). -/
def execExpDec (b : List (BitVec 8)) (s : State) : Host.Outcome State Fault Refusal :=
  .next
    (match expDecode b with
    | none => s.raise .badEncoding
    | some d => if Config.maxRawEnc < d.length then s.raise .decodedTooLong else s.answer d.length d)

end Sys2Proof.Machine
end

