-- ==== Sys2Proof/Machine/Frm.lean ====
section
/-! DEFINITION. Meanings of the frame operations FRM (R100 to R108). None raises an error, none touches another frame. -/

namespace Sys2Proof.Machine

/-- `FRM.CLEAR f` (R100). -/
def execFrmClear (f : FrameSel) (s : State) : Host.Outcome State Fault Refusal :=
  .next ((s.setFrame f (s.frame f).clear).answer 0)

/-- `FRM.PUT f, b` (R101): a full frame is a no-op that reports 0 and sets `trunc` (R308). -/
def execFrmPut (f : FrameSel) (b : BitVec 8) (s : State) : Host.Outcome State Fault Refusal :=
  .next (if (s.frame f).wr.val < 64 then (s.setFrame f ((s.frame f).put b)).answer 1 else s.answer 0 [] true)

/-- `FRM.GET f` (R102): the byte at the read cursor, while the cursor is below the extent. -/
def execFrmGet (f : FrameSel) (s : State) : Host.Outcome State Fault Refusal :=
  .next
    (if (s.frame f).rd < (s.frame f).wr then
      (s.setFrame f { s.frame f with rd := cursor ((s.frame f).rd.val + 1) }).answer 1
        [(s.frame f).byte (s.frame f).rd.val]
    else s.answer 0)

/-- `FRM.RESETLEN f, n` (R103). -/
def execFrmResetLen (f : FrameSel) (n : BitVec 8) (s : State) : Host.Outcome State Fault Refusal :=
  .next ((s.setFrame f ((s.frame f).resetLen n.toNat)).answer ((s.frame f).resetLen n.toNat).wr.val)

/-- `FRM.EXTENT f` (R104): the extent, and the read cursor on data-out. -/
def execFrmExtent (f : FrameSel) (s : State) : Host.Outcome State Fault Refusal :=
  .next (s.answer (s.frame f).wr.val [BitVec.ofNat 8 (s.frame f).rd.val])

/-- `FRM.LD f, i` (R106): any of the 64 bytes, whatever the extent. -/
def execFrmLd (f : FrameSel) (i : BitVec 6) (s : State) : Host.Outcome State Fault Refusal :=
  .next (s.answer ((s.frame f).byte i.toNat).toNat)

/-- `FRM.ST f, i, v` (R107): any of the 64 bytes; no cursor moves. -/
def execFrmSt (f : FrameSel) (i : BitVec 6) (v : BitVec 8) (s : State) : Host.Outcome State Fault Refusal :=
  .next ((s.setFrame f ((s.frame f).setByte i.toNat v)).answer 0)

/-- `FRM.META f` (R108): the module identifier, and node, module (most significant byte first), signal on data-out. -/
def execFrmMeta (f : FrameSel) (s : State) : Host.Outcome State Fault Refusal :=
  .next (s.answer (s.frame f).moduleId.toNat
    [(s.frame f).node, (s.frame f).moduleId.extractLsb' 8 8, (s.frame f).moduleId.extractLsb' 0 8, (s.frame f).sig])

end Sys2Proof.Machine
end

