-- ==== Sys2Proof/Machine/Hdr.lean ====
section
/-! DEFINITION. Meanings of the header codec operations HDR (R120 to R137). Every one but HDR.RESET needs the header (R121). -/

namespace Sys2Proof.Machine

/-- `HDR.RESET f, n` (R120): cleared, extent `3 + n` clamped to 64, `length` left 0. -/
def execHdrReset (f : FrameSel) (n : BitVec 8) (s : State) : Host.Outcome State Fault Refusal :=
  .next ((s.setFrame f ((s.frame f).clear.resetLen (3 + n.toNat))).answer
    (((s.frame f).clear.resetLen (3 + n.toNat)).wr.val - 3) []
    (truncated (((s.frame f).clear.resetLen (3 + n.toNat)).wr.val - 3) n.toNat))

/-- `HDR.LEN f` (R122). -/
def execHdrLen (f : FrameSel) (s : State) : Host.Outcome State Fault Refusal :=
  .next (s.needHeader f fun x => s.answer x.lengthField)

/-- `HDR.TYPE f` (R123): 4 to 7 as they stand. -/
def execHdrType (f : FrameSel) (s : State) : Host.Outcome State Fault Refusal :=
  .next (s.needHeader f fun x => s.answer (typeBits (x.byte 1)).toNat)

/-- `HDR.ENC f` (R124). -/
def execHdrEnc (f : FrameSel) (s : State) : Host.Outcome State Fault Refusal :=
  .next (s.needHeader f fun x => s.answer (encBit (x.byte 1)).toNat)

/-- `HDR.FRAG f` (R125). -/
def execHdrFrag (f : FrameSel) (s : State) : Host.Outcome State Fault Refusal :=
  .next (s.needHeader f fun x => s.answer (fragBit (x.byte 1)).toNat)

/-- `HDR.ACKREQ f` (R126). -/
def execHdrAckReq (f : FrameSel) (s : State) : Host.Outcome State Fault Refusal :=
  .next (s.needHeader f fun x => s.answer (ackReqBit (x.byte 1)).toNat)

/-- `HDR.ID f` (R127). -/
def execHdrId (f : FrameSel) (s : State) : Host.Outcome State Fault Refusal :=
  .next (s.needHeader f fun x => s.answer (x.byte 2).toNat)

/-- `HDR.SETLEN f, v` (R129): a value above 63 is rejected, not masked. -/
def execHdrSetLen (f : FrameSel) (v : BitVec 8) (s : State) : Host.Outcome State Fault Refusal :=
  .next (s.needHeader f fun x =>
    if Config.lenFieldMax < v.toNat then s.raise .lengthRange
    else (s.setFrame f (x.setByte 0 v)).answer v.toNat)

/-- `HDR.SETTYPE f, t` (R131): the type is replaced. -/
def execHdrSetType (f : FrameSel) (t : BitVec 3) (s : State) : Host.Outcome State Fault Refusal :=
  .next (s.needHeader f fun x => (s.setFrame f (x.mapByte1 (putType t))).answer t.toNat)

/-- `HDR.SETENC f, b` (R132). -/
def execHdrSetEnc (f : FrameSel) (b : Bool) (s : State) : Host.Outcome State Fault Refusal :=
  .next (s.needHeader f fun x => (s.setFrame f (x.mapByte1 (putEnc b))).answer b.toNat)

/-- `HDR.SETFRAG f, b` (R133). -/
def execHdrSetFrag (f : FrameSel) (b : Bool) (s : State) : Host.Outcome State Fault Refusal :=
  .next (s.needHeader f fun x => (s.setFrame f (x.mapByte1 (putFrag b))).answer b.toNat)

/-- `HDR.SETACKREQ f, b` (R134). -/
def execHdrSetAckReq (f : FrameSel) (b : Bool) (s : State) : Host.Outcome State Fault Refusal :=
  .next (s.needHeader f fun x => (s.setFrame f (x.mapByte1 (putAckReq b))).answer b.toNat)

/-- `HDR.SETID f, v` (R135). -/
def execHdrSetId (f : FrameSel) (v : BitVec 8) (s : State) : Host.Outcome State Fault Refusal :=
  .next (s.needHeader f fun x => (s.setFrame f (x.setByte 2 v)).answer v.toNat)

/-- `HDR.UPDLEN f` (R130). -/
def execHdrUpdLen (f : FrameSel) (s : State) : Host.Outcome State Fault Refusal :=
  .next (s.needHeader f fun x => (s.setFrame f x.updLen).answer (x.wr.val - 3))

/-- `HDR.DISPATCH f` (R136): the number of the variant, or `UnknownPacketType`. -/
def execHdrDispatch (f : FrameSel) (s : State) : Host.Outcome State Fault Refusal :=
  .next (s.needHeader f fun x =>
    if 3 < (typeBits (x.byte 1)).toNat then s.raise .unknownPacketType else s.answer (typeBits (x.byte 1)).toNat)

/-- `HDR.PACK f, len, flags, type, id` (R137): the range checks in the order of R312, then the three bytes. -/
def execHdrPack (f : FrameSel) (len flags type id : BitVec 8) (s : State) : Host.Outcome State Fault Refusal :=
  .next (s.needHeader f fun x =>
    if Config.lenFieldMax < len.toNat then s.raise .lengthRange
    else if 7 < flags.toNat ∨ 7 < type.toNat then s.raise .fieldRange
    else
      (s.setFrame f (x.store 0 (hdrPack (len.setWidth 6) (flags.getLsbD 2) (flags.getLsbD 1) (flags.getLsbD 0)
        (type.setWidth 3) id))).answer 0)

/-- `HDR.UNPACK f` (R128). -/
def execHdrUnpack (f : FrameSel) (s : State) : Host.Outcome State Fault Refusal :=
  .next (s.needHeader f fun x => s.answer x.lengthField (hdrUnpack (x.byte 0) (x.byte 1) (x.byte 2)))

end Sys2Proof.Machine
end

