-- ==== Sys2Proof/Machine/Ntc.lean ====
section
/-! DEFINITION. Meanings of the Notice operations NTC (R165, R166). -/

namespace Sys2Proof.Machine

/-- `NTC.SET f, s` (R165): at most 61 bytes; the flags are kept. -/
def execNtcSet (f : FrameSel) (b : List (BitVec 8)) (s : State) : Host.Outcome State Fault Refusal :=
  .next ((s.setFrame f ((s.frame f).setNotice b)).answer (noticeCount b.length) []
    (truncated (noticeCount b.length) b.length))

/-- `NTC.GET f` (R166): the string and one 0x00 after it (R159). -/
def execNtcGet (f : FrameSel) (s : State) : Host.Outcome State Fault Refusal :=
  .next (s.payloadWindow f fun x n => s.answer n (x.payload ++ [0]))

end Sys2Proof.Machine
end

