-- ==== Sys2Proof/Machine/Snd.lean ====
section
/-! DEFINITION. Meanings of the sender operations SND (R210 to R221). -/

namespace Sys2Proof.Machine

/-- `SND.SEQ` (R210): the counter before the increment. -/
def execSndSeq (s : State) : Host.Outcome State Fault Refusal := .next (s.bumpSeq.answer s.seq.toNat)

/-- `SND.XMIT f` (R211): the whole extent, whatever `length` says (R351). -/
def execSndXmit (f : FrameSel) (s : State) : Host.Outcome State Fault Refusal :=
  .next (s.needHeader f fun x =>
    if (s.xmitFrame f).1 = x.wr.val then (s.xmitFrame f).2.answer x.wr.val
    else (s.xmitFrame f).2.raise .sendMismatch (s.xmitFrame f).1)

/-- The rounds of `SND.DATA` (R213), at most `fuel` of them: `rest` is left to send, `total` has been carried. Each
round carries at least one byte, so as many rounds as bytes are enough. -/
def sendDataLoop (fragment encode : Bool) : Nat → List (BitVec 8) → Nat → State → State
  | 0, _, total, s => s.answer total
  | fuel + 1, rest, total, s =>
    if rest = [] then s.answer total
    else
      let c := dataCount encode rest.length
      let x := s.dataFrame fragment encode rest (decide (c < rest.length))
      if (s.xmitTxf x).1 = x.wr.val then sendDataLoop fragment encode fuel (rest.drop c) (total + c) (s.xmitTxf x).2
      else (s.xmitTxf x).2.raise .sendMismatch total

/-- `SND.DATA opts, s` (R213): fragments, never truncates; nothing is sent for an empty string. -/
def execSndData (fragment encode : Bool) (b : List (BitVec 8)) (s : State) : Host.Outcome State Fault Refusal :=
  .next (sendDataLoop fragment encode b.length b 0 s)

/-- `SND.CMD op, s` (R215). -/
def execSndCmd (op : BitVec 8) (b : List (BitVec 8)) (s : State) : Host.Outcome State Fault Refusal :=
  .next (s.sendBuilt ((((s.txf).build 1).setOpcode op).setString b) (paramCount b.length)
    (truncated (paramCount b.length) b.length))

/-- `SND.CMDACK op, s` (R216): `ACKREQ` set before transmission. -/
def execSndCmdAck (op : BitVec 8) (b : List (BitVec 8)) (s : State) : Host.Outcome State Fault Refusal :=
  .next (s.sendBuilt (((((s.txf).build 1).setOpcode op).setString b).mapByte1 (putAckReq true)) (paramCount b.length)
    (truncated (paramCount b.length) b.length))

/-- `SND.ACK op, s` (R217). -/
def execSndAck (op : BitVec 8) (b : List (BitVec 8)) (s : State) : Host.Outcome State Fault Refusal :=
  .next (s.sendBuilt (s.ackFrame op b) (paramCount b.length) (truncated (paramCount b.length) b.length))

/-- `SND.NOTICE s` (R218). -/
def execSndNotice (b : List (BitVec 8)) (s : State) : Host.Outcome State Fault Refusal :=
  .next (s.sendBuilt (((s.txf).build 3).setNotice b) (noticeCount b.length)
    (truncated (noticeCount b.length) b.length))

end Sys2Proof.Machine
end

