-- ==== Sys2Proof/Machine/Rcv.lean ====
section
/-! DEFINITION. The receiver RCV: the entry of RCV.LISTEN (R242), one iteration of its state machine (R243 to R256) and its
failure exit (R263). -/

namespace Sys2Proof.Machine

/-- `rx_state <- st` (R33). -/
def State.goTo (s : State) (st : RxState) : State := { s with rxState := st }

/-- `RCV.LISTEN` ends: the command port is open again (R63). -/
def State.close (s : State) : State := { s with listening := false }

/-- The pending bytes replaced by what is left of them after reads. -/
def State.leave (s : State) (r : List (BitVec 8)) : State := { s with t := { s.t with inbound := r } }

/-- `fail(E(c))` (R263): the working frame is cleared, the machine is idle, the operation ends with the error.
`val` is 0 except where R301 records another value (U20). -/
def State.rxFail (s : State) (c : Cause) (val : Nat := 0) : State :=
  (((s.setFrame s.rxFrame (s.frame s.rxFrame).clear).goTo .idle).close).raise c val

/-- `account_time()` (R244): elapsed ticks modulo 2^32; the finite budget saturates at 0. -/
def State.accountTime (s : State) : State :=
  { s.now.2 with
    rxLast := s.now.1
    rxBudget :=
      if s.rxUnbounded then s.rxBudget else BitVec.ofNat 31 (s.rxBudget.toNat - (s.now.1 - s.rxLast).toNat) }

/-- `timed_out()` (R245). -/
def State.timedOut (s : State) : Bool := !s.rxUnbounded && decide (s.rxBudget = 0)

/-- `extend()` (R247): once per `RCV.LISTEN`, only with a finite budget, saturating at `2^31 - 1`. -/
def State.extendBudget (s : State) : State :=
  if s.rxUnbounded || s.rxExtended then s
  else
    { s.byteTime.2 with
      rxBudget :=
        BitVec.ofNat 31 (min (s.rxBudget.toNat + s.byteTime.1 * Config.extBytes s.cfg.profile) Config.budgetMax)
      rxExtended := true }

/-- `Idle` (R248): waits for any byte, consumes none. -/
def rxIdle (s : State) : State :=
  match s.t.inbound with
  | [] => s
  | _ :: _ => s.extendBudget.goTo .rxNode

/-- `RxNode` (R249): two digits and a separator that is not looked at (R252). -/
def rxNode (s : State) : State :=
  match s.t.inbound with
  | c1 :: c0 :: _ :: r =>
    match hex2 c1 c0 with
    | some v => ((s.leave r).setFrame s.rxFrame { s.frame s.rxFrame with node := v }).goTo .rxModule
    | none => (s.leave r).rxFail .malformedField
  | _ => s

/-- `RxModule` (R250): four digits and a separator. -/
def rxModule (s : State) : State :=
  match s.t.inbound with
  | c3 :: c2 :: c1 :: c0 :: _ :: r =>
    match hex4 c3 c2 c1 c0 with
    | some v => ((s.leave r).setFrame s.rxFrame { s.frame s.rxFrame with moduleId := v }).goTo .rxSignal
    | none => (s.leave r).rxFail .malformedField
  | _ => s

/-- `RxSignal` (R251): two digits and a separator. -/
def rxSignal (s : State) : State :=
  match s.t.inbound with
  | c1 :: c0 :: _ :: r =>
    match hex2 c1 c0 with
    | some v => ((s.leave r).setFrame s.rxFrame { s.frame s.rxFrame with sig := v }).goTo .rxHeader
    | none => (s.leave r).rxFail .malformedField
  | _ => s

/-- `ready(k)` and `fetch(k)` (R254) together: none where too few bytes are available; else the frame byte with index
`k` (none where a digit is not a hex digit) and the bytes left. -/
def fetchFrameByte (p : Config.WireProfile) (k : Nat) (inb : List (BitVec 8)) :
    Option (Option (BitVec 8) × List (BitVec 8)) :=
  match p with
  | .rawBinary =>
    match inb with
    | c :: r => some (some c, r)
    | [] => none
  | .asciiHex =>
    if k = 0 then
      match inb with
      | c1 :: c0 :: r => some (hex2 c1 c0, r)
      | _ => none
    else
      match inb with
      | _ :: c1 :: c0 :: r => some (hex2 c1 c0, r)
      | _ => none

/-- `put(f, v)` for a frame byte, with the bytes left in T. -/
def State.appendByte (s : State) (v : BitVec 8) (r : List (BitVec 8)) : State :=
  (s.leave r).setFrame s.rxFrame ((s.frame s.rxFrame).put v)

/-- The frame byte that can be fetched now, if any (R254). -/
def State.nextFrameByte (s : State) : Option (Option (BitVec 8) × List (BitVec 8)) :=
  fetchFrameByte s.cfg.profile (s.frame s.rxFrame).wr.val s.t.inbound

/-- `RxHeader` (R253): one header byte; after the third the payload follows. -/
def rxHeader (s : State) : State :=
  match s.nextFrameByte with
  | none => s
  | some (none, r) => (s.leave r).rxFail .malformedField
  | some (some v, r) =>
    if ((s.appendByte v r).frame s.rxFrame).wr.val = 3 then (s.appendByte v r).goTo .rxPayload
    else s.appendByte v r

/-- One payload byte (R256). -/
def rxPayloadByte (s : State) : State :=
  match s.nextFrameByte with
  | none => s
  | some (none, r) => (s.leave r).rxFail .malformedField
  | some (some v, r) => s.appendByte v r

/-- The two terminator bytes, not compared (R252, R256); then the frame is complete. -/
def rxTerminator (s : State) : State :=
  match s.t.inbound with
  | _ :: _ :: r => (s.leave r).goTo .done
  | _ => s

/-- `RxPayload` (R255, R256): the length test, before any `T.avail` query; then one payload byte or the terminator. -/
def rxPayload (s : State) : State :=
  if (s.frame s.rxFrame).lengthField = 0 then s.rxFail .lengthZero
  else if Config.maxPayload < (s.frame s.rxFrame).lengthField then s.rxFail .lengthTooLarge
  else if (s.frame s.rxFrame).wr.val - 3 < (s.frame s.rxFrame).lengthField then rxPayloadByte s.arrive
  else rxTerminator s.arrive

/-- `step()` (R248 to R256): one `T.avail` query (R311), then the state's own step. In `RxPayload` no query is made
where the length test fails, and `Done` is dispatched by executing the frame's header (notes/assumptions/4). -/
def rxStep (s : State) : State :=
  match s.rxState with
  | .idle => rxIdle s.arrive
  | .rxNode => rxNode s.arrive
  | .rxModule => rxModule s.arrive
  | .rxSignal => rxSignal s.arrive
  | .rxHeader => rxHeader s.arrive
  | .rxPayload => rxPayload s
  | .done => s

/-- One iteration (R243): time accounting, the timeout test, the step. -/
def rxIteration (s : State) : State :=
  if s.accountTime.timedOut then s.accountTime.rxFail .budgetExhausted else rxStep s.accountTime

/-- `RCV.LISTEN f, b32`: the entry (R242). The iterations follow, one a step; the result comes when one of them ends
the operation. -/
def execRcvListen (f : FrameSel) (budget : BitVec 32) (s : State) : Host.Outcome State Fault Refusal :=
  .next
    { (s.now.2).setFrame f (s.frame f).clear with
      rxState := .idle
      rxExtended := false
      rxLast := s.now.1
      rxUnbounded := unboundedBudget budget
      rxBudget := if unboundedBudget budget then s.rxBudget else budget.setWidth 31
      listening := true
      rxFrame := f
      result := none }

/-- What a step does where there is nothing to fetch: an iteration of the running `RCV.LISTEN` (R240), or waiting for
a command word (R345). -/
def State.idleOrIterate (s : State) : State := if s.listening then rxIteration s else s

end Sys2Proof.Machine
end

