-- ==== Sys2Proof/Machine/Types.lean ====
section
/-! DEFINITION. Meanings of the header-type rows TYPE (format HDR24): what the receiver does with a completed frame of
that type in state `Done` (R257 to R262). -/

namespace Sys2Proof.Machine

/-- `done()`, the ordinary case (R257): `RCV.LISTEN` ends with the packet type; the frame is as received. -/
def State.deliver (s : State) (type : Nat) : State := ((s.goTo .idle).close).answer type

/-- The end of an intercept (R261): the working frame is cleared and the operation goes on in `Idle`. -/
def State.rxLoop (s : State) : State := (s.setFrame s.rxFrame (s.frame s.rxFrame).clear).goTo .idle

/-- The acknowledgement of an intercept (R260), if one is requested: exactly one Ack with the opcode and the response;
an Ack that is not accepted whole ends the operation (R262), with the effective length of the response as `val` (R301,
U20; notes/assumptions/16). -/
def State.interceptAck (s : State) (ackReq : Bool) (r : List (BitVec 8)) : State :=
  if ackReq then
    if (s.xmitTxf (s.ackFrame s.cfg.opcExec r)).1 = (s.ackFrame s.cfg.opcExec r).wr.val then
      (s.xmitTxf (s.ackFrame s.cfg.opcExec r)).2.rxLoop
    else (s.xmitTxf (s.ackFrame s.cfg.opcExec r)).2.rxFail .sendMismatch (paramCount r.length)
  else s.rxLoop

/-- `intercept()` (R259 to R262) of the command text `p`. -/
def State.intercept (s : State) (ackReq : Bool) (p : List (BitVec 8)) : State :=
  match (s.execModule p).1 with
  | none => (s.execModule p).2.rxFail .execFailed
  | some r => (s.execModule p).2.interceptAck ackReq r

/-- TYPE.DATA.RAW (R84, R257): delivered as Data. -/
def execTypeDataRaw (s : State) : Host.Outcome State Fault Refusal := .next (s.deliver 0)

/-- TYPE.DATA.ENC (R85, R197, R257): delivered as Data, still encoded. -/
def execTypeDataEnc (s : State) : Host.Outcome State Fault Refusal := .next (s.deliver 0)

/-- `done()` for a Command frame (R257, R258): intercepted when its opcode byte is `OPC_EXEC`, else delivered. -/
def State.commandDone (s : State) (ackReq : Bool) (n : Nat) : State :=
  if (s.frame s.rxFrame).byte 3 = s.cfg.opcExec then s.intercept ackReq ((s.frame s.rxFrame).bytes 4 (n - 1))
  else s.deliver 1

/-- TYPE.COMMAND (R86, R257 to R262): delivered or intercepted. An intercept whose length reaches past offset 63 has no
command text to read (R52): a fault, which no run reaches (R255). -/
def execTypeCommand (h : HeaderFields) (s : State) : Host.Outcome State Fault Refusal :=
  if 3 + h.length.toNat ≤ Config.frameCap then .next (s.commandDone h.ackReq h.length.toNat)
  else if (s.frame s.rxFrame).byte 3 = s.cfg.opcExec then .fault (.outsideFrame Config.frameCap)
  else .next (s.deliver 1)

/-- TYPE.ACK (R86, R257, R258): delivered; an Ack is never intercepted. -/
def execTypeAck (s : State) : Host.Outcome State Fault Refusal := .next (s.deliver 2)

/-- TYPE.NOTICE (R87, R257, R258): delivered. -/
def execTypeNotice (s : State) : Host.Outcome State Fault Refusal := .next (s.deliver 3)

/-- TYPE.RESERVED (R80, R257): the dispatch fails, the frame is cleared. -/
def execTypeReserved (s : State) : Host.Outcome State Fault Refusal := .next (s.rxFail .unknownPacketType)

end Sys2Proof.Machine
end

