-- ==== Sys2Proof/Machine/Dispatch.lean ====
section
/-! DEFINITION. One arm for each instruction: a direct call of its meaning. -/

namespace Sys2Proof.Machine

def exec (i : Instr) (s : State) : Host.Outcome State Fault Refusal :=
  match i with
  | .typeDataRaw _ => Sys2Proof.Machine.execTypeDataRaw s
  | .typeDataEnc _ => Sys2Proof.Machine.execTypeDataEnc s
  | .typeCommand _ h => Sys2Proof.Machine.execTypeCommand h s
  | .typeAck _ _ => Sys2Proof.Machine.execTypeAck s
  | .typeNotice _ _ => Sys2Proof.Machine.execTypeNotice s
  | .typeReserved _ _ _ => Sys2Proof.Machine.execTypeReserved s
  | .frmClear f => Sys2Proof.Machine.execFrmClear f s
  | .frmPut f b => Sys2Proof.Machine.execFrmPut f b s
  | .frmGet f => Sys2Proof.Machine.execFrmGet f s
  | .frmResetLen f n => Sys2Proof.Machine.execFrmResetLen f n s
  | .frmExtent f => Sys2Proof.Machine.execFrmExtent f s
  | .frmLd f k => Sys2Proof.Machine.execFrmLd f k s
  | .frmSt f k v => Sys2Proof.Machine.execFrmSt f k v s
  | .frmMeta f => Sys2Proof.Machine.execFrmMeta f s
  | .hdrReset f n => Sys2Proof.Machine.execHdrReset f n s
  | .hdrLen f => Sys2Proof.Machine.execHdrLen f s
  | .hdrType f => Sys2Proof.Machine.execHdrType f s
  | .hdrEnc f => Sys2Proof.Machine.execHdrEnc f s
  | .hdrFrag f => Sys2Proof.Machine.execHdrFrag f s
  | .hdrAckReq f => Sys2Proof.Machine.execHdrAckReq f s
  | .hdrId f => Sys2Proof.Machine.execHdrId f s
  | .hdrSetLen f v => Sys2Proof.Machine.execHdrSetLen f v s
  | .hdrSetType f t => Sys2Proof.Machine.execHdrSetType f t s
  | .hdrSetEnc f b => Sys2Proof.Machine.execHdrSetEnc f b s
  | .hdrSetFrag f b => Sys2Proof.Machine.execHdrSetFrag f b s
  | .hdrSetAckReq f b => Sys2Proof.Machine.execHdrSetAckReq f b s
  | .hdrSetId f v => Sys2Proof.Machine.execHdrSetId f v s
  | .hdrUpdLen f => Sys2Proof.Machine.execHdrUpdLen f s
  | .hdrDispatch f => Sys2Proof.Machine.execHdrDispatch f s
  | .hdrPack f len flags type id => Sys2Proof.Machine.execHdrPack f len flags type id s
  | .hdrUnpack f => Sys2Proof.Machine.execHdrUnpack f s
  | .datSetRaw f b => Sys2Proof.Machine.execDatSetRaw f b s
  | .datSetEnc f b => Sys2Proof.Machine.execDatSetEnc f b s
  | .datDecode f => Sys2Proof.Machine.execDatDecode f s
  | .datGet f => Sys2Proof.Machine.execDatGet f s
  | .cmdSetOp f op => Sys2Proof.Machine.execCmdSetOp f op s
  | .cmdGetOp f => Sys2Proof.Machine.execCmdGetOp f s
  | .cmdSetParam f b => Sys2Proof.Machine.execCmdSetParam f b s
  | .cmdGetParam f => Sys2Proof.Machine.execCmdGetParam f s
  | .ackSetOp f op => Sys2Proof.Machine.execAckSetOp f op s
  | .ackGetOp f => Sys2Proof.Machine.execAckGetOp f s
  | .ackSetResp f b => Sys2Proof.Machine.execAckSetResp f b s
  | .ackGetResp f => Sys2Proof.Machine.execAckGetResp f s
  | .ntcSet f b => Sys2Proof.Machine.execNtcSet f b s
  | .ntcGet f => Sys2Proof.Machine.execNtcGet f s
  | .expEnc b => Sys2Proof.Machine.execExpEnc b s
  | .expDec b => Sys2Proof.Machine.execExpDec b s
  | .sndSeq => Sys2Proof.Machine.execSndSeq s
  | .sndXmit f => Sys2Proof.Machine.execSndXmit f s
  | .sndData fragment encode b => Sys2Proof.Machine.execSndData fragment encode b s
  | .sndCmd op b => Sys2Proof.Machine.execSndCmd op b s
  | .sndCmdAck op b => Sys2Proof.Machine.execSndCmdAck op b s
  | .sndAck op b => Sys2Proof.Machine.execSndAck op b s
  | .sndNotice b => Sys2Proof.Machine.execSndNotice b s
  | .rcvListen f budget => Sys2Proof.Machine.execRcvListen f budget s

end Sys2Proof.Machine
end

