-- ==== Sys2Proof/Machine/Reset.lean ====
section
/-! DEFINITION. A reset that strikes while an operation runs (R340, U18): the calls the operation makes of T and of the tick
input, in their order, and the state in which a reset after some of them leaves the machine. -/

namespace Sys2Proof.Machine

/-- One call, as far as T and the tick input are concerned (R11). -/
def State.perform (s : State) : Call → State
  | .now => s.now.2
  | .avail => s.arrive
  | .byteTime => s.byteTime.2
  | .read => s.leave s.t.inbound.tail
  | .exec c => (s.execModule c).2
  | .send b => (s.send b).2

/-- Calls in their order. -/
def State.performAll (s : State) (l : List Call) : State := l.foldl State.perform s

/-- The iteration asks `T.avail`: always but where the length test of `RxPayload` fails (R255, R311). -/
def State.asksTransport (s : State) : Bool :=
  match s.rxState with
  | .rxPayload => decide (1 ≤ (s.frame s.rxFrame).lengthField) && decide ((s.frame s.rxFrame).lengthField ≤ Config.maxPayload)
  | .idle => true
  | .rxNode => true
  | .rxModule => true
  | .rxSignal => true
  | .rxHeader => true
  | .done => false

/-- `extend()` asks `T.byteTime` (R247, R248): in `Idle` with a byte pending, once, with a finite budget. -/
def State.asksByteTime (s : State) : Bool :=
  decide (s.rxState = .idle) && !s.t.inbound.isEmpty && !s.rxUnbounded && !s.rxExtended

/-- The calls of the iteration from `s` to `t` (R243 to R256): the tick sample; where time is left, the query, then
`T.byteTime` or the reads. -/
def State.iterationCalls (s t : State) : List Call :=
  .now ::
    if s.accountTime.timedOut || !s.accountTime.asksTransport then []
    else
      .avail ::
        ((if s.accountTime.arrive.asksByteTime then [.byteTime] else []) ++
          List.replicate (s.accountTime.arrive.t.inbound.length - t.t.inbound.length) .read)

/-- The calls of the instruction that leads from `s` to `t`: the tick sample of the entry of `RCV.LISTEN` (R242); the
module command of an intercept, then the frames handed over (R211, R213, R259, R260). -/
def State.instructionCalls (s t : State) : List Call :=
  (if t.listening && !s.listening then [.now] else []) ++
    (t.t.executed.drop s.t.executed.length).map (fun x => .exec x.command) ++
    (t.t.sent.drop s.t.sent.length).map (fun x => .send x.bytes)

/-- The calls of the step from `s` to `t`. -/
def State.callsTo (s t : State) : List Call :=
  if s.listening && decide (s.rxState ≠ .done) then s.iterationCalls t else s.instructionCalls t

/-- `RST` strikes after `k` calls of the operation that would have led from `s` to `t` (R340, U18): the operation is
abandoned without a result, its word has been taken, and what it did to T and to the tick input so far stays (R346). -/
def State.cutShort (s : State) (k : Nat) (t : State) : State :=
  { (s.performAll ((s.callsTo t).take k)).resetPulse with host := t.host }

/-- What the step comes to when `RST` strikes after `k` calls of what it does. -/
def State.abandon (s : State) (k : Nat) : Host.Outcome State Fault Refusal → Host.Outcome State Fault Refusal
  | .next t => .next (s.cutShort k t)
  | .fault x => .fault x
  | .refused r => .refused r

end Sys2Proof.Machine
end

