-- ==== Sys2Proof/Machine/Step.lean ====
section
/-! DEFINITION. One step of the machine: a sample of the reset input; then the instruction that is fetched, or an
iteration of the running `RCV.LISTEN`, or waiting (R63, R240, R340, R345). -/

namespace Sys2Proof.Machine

/-- A step with the reset input released: what `fetch` finds is decoded and executed. -/
def State.run (s : State) : Host.Outcome State Fault Refusal :=
  match s.fetch with
  | some (w, s') =>
    match decode w with
    | .ok i => exec i s'
    | .error r => .refused (.notAccepted r)
  | none => .next s.idleOrIterate

/-- One step. While the reset input is asserted no operation is accepted, and one that it strikes is abandoned (R340). -/
def step (s : State) : Host.Outcome State Fault Refusal :=
  match s.sampleRst.1 with
  | .released => s.sampleRst.2.run
  | .asserted => .next s.sampleRst.2.resetPulse
  | .during k => s.sampleRst.2.abandon k s.sampleRst.2.run

/-- The machine with a table word where its next step fetches (notes/assumptions/1, 2): an operation is presented on
the command port, with its data-in bytes, ahead of what the host presents, and no operation runs; a header word stands
in the first three bytes of the working frame, complete and waiting for its dispatch. The reset input is released. -/
def State.withFetchWord (s : State) (_nbits w : Nat) : State :=
  match tableFetched w with
  | .command t => { s with host := t :: s.host, listening := false, rxState := .idle, rst := [] }
  | .header h =>
    { s.setFrame s.rxFrame ((s.frame s.rxFrame).store 0 [h.extractLsb' 16 8, h.extractLsb' 8 8, h.extractLsb' 0 8]) with
      listening := true, rxState := .done, rst := [] }

end Sys2Proof.Machine
end

