-- ==== Sys2Proof/Safety.lean ====
section
/-! DEFINITION. The words in which claims are stated: well-formed frames and states, what an operation leaves alone,
consistent frames (R14), and the inbound wire text of a frame (R88). -/

namespace Sys2Proof.Machine

/-- A well-formed frame: read cursor at or below the write cursor (R22; the bound 64 is in the type), storage in
canonical form. -/
def Frame.ok (x : Frame) : Bool := decide (x.rd ≤ x.wr) && Mem.wf x.buf

/-- A frame that holds nothing: the state of a cleared frame but for its metadata (R100). -/
def Frame.isClear (x : Frame) : Bool := decide (x.buf = []) && decide (x.wr.val = 0) && decide (x.rd.val = 0)

/-- What holds of the working frame `x` in each state of a running `RCV.LISTEN` (R242, R249 to R256). -/
def rxFrameOk (x : Frame) : RxState → Bool
  | .idle => x.isClear
  | .rxNode => x.isClear
  | .rxModule => x.isClear
  | .rxSignal => x.isClear
  | .rxHeader => decide (x.wr.val < 3) && decide (x.rd.val = 0)
  | .rxPayload =>
    decide (x.rd.val = 0) && decide (3 ≤ x.wr.val) &&
      (decide (x.wr.val = 3) ||
        (decide (1 ≤ x.lengthField) && decide (x.lengthField ≤ 61) && decide (x.wr.val ≤ 3 + x.lengthField)))
  | .done =>
    decide (x.rd.val = 0) && decide (1 ≤ x.lengthField) && decide (x.lengthField ≤ 61) &&
      decide (x.wr.val = 3 + x.lengthField)

/-- The invariant of the machine: every frame is well formed (R22); while no `RCV.LISTEN` runs the receiver is idle
(R33); while one runs, its working frame is as far as the receiver's state says. -/
def State.inv (s : State) : Bool :=
  s.f0.ok && s.f1.ok && s.txf.ok &&
    (if s.listening then rxFrameOk (s.frame s.rxFrame) s.rxState else decide (s.rxState = .idle))

/-- A consistent frame (R14): it holds a header, and `length` is the payload extent. -/
def Frame.consistent (x : Frame) : Bool := decide (3 ≤ x.wr.val) && decide (x.lengthField = x.wr.val - 3)

/-- The metadata of two frames agree (R27). -/
def Frame.sameMeta (x y : Frame) : Prop := y.node = x.node ∧ y.moduleId = x.moduleId ∧ y.sig = x.sig

/-- `SEQ` and the registers of the receiver agree. -/
def State.sameRegisters (s t : State) : Prop :=
  t.seq = s.seq ∧ t.rxState = s.rxState ∧ t.rxBudget = s.rxBudget ∧ t.rxUnbounded = s.rxUnbounded ∧
    t.rxLast = s.rxLast ∧ t.rxExtended = s.rxExtended ∧ t.listening = s.listening ∧ t.rxFrame = s.rxFrame

/-- The environment agrees: nothing was drawn, sent, executed or read. -/
def State.sameEnvironment (s t : State) : Prop :=
  t.host = s.host ∧ t.ticks = s.ticks ∧ t.rst = s.rst ∧ t.t = s.t ∧ t.draws = s.draws ∧ t.cfg = s.cfg

/-- T, the coming ticks and the count of draws agree: all that the answers to later calls depend on. -/
def State.sameInputs (s t : State) : Prop := t.t = s.t ∧ t.ticks = s.ticks ∧ t.draws = s.draws

/-- Nothing but the result port differs. -/
def State.onlyResult (s t : State) : Prop :=
  t.f0 = s.f0 ∧ t.f1 = s.f1 ∧ t.txf = s.txf ∧ s.sameRegisters t ∧ s.sameEnvironment t

/-- Nothing but `F[f]` and the result port differs. -/
def State.onlyFrame (f : FrameSel) (s t : State) : Prop :=
  (∀ g, g ≠ f → t.frame g = s.frame g) ∧ t.txf = s.txf ∧ s.sameRegisters t ∧ s.sameEnvironment t

/-- Every byte of the frame's storage outside `lo` to `hi - 1` reads as before. -/
def Frame.sameBytesOutside (x y : Frame) (lo hi : Nat) : Prop := ∀ a, a < lo ∨ hi ≤ a → y.byte a = x.byte a

/-- The registers of the receiver and everything of the environment but T's answers to sends and the free values agree,
as they do across a send; the frames and `SEQ` are not spoken of. -/
def State.sameAroundSend (s t : State) : Prop :=
  t.rxState = s.rxState ∧ t.rxBudget = s.rxBudget ∧ t.rxUnbounded = s.rxUnbounded ∧ t.rxLast = s.rxLast ∧
    t.rxExtended = s.rxExtended ∧ t.listening = s.listening ∧ t.rxFrame = s.rxFrame ∧ t.host = s.host ∧
    t.ticks = s.ticks ∧ t.rst = s.rst ∧ t.cfg = s.cfg ∧ t.t.inbound = s.t.inbound ∧ t.t.arrivals = s.t.arrivals ∧
    t.t.byteTimes = s.t.byteTimes ∧ t.t.execAnswers = s.t.execAnswers ∧ t.t.executed = s.t.executed

/-- `T.send` was called once from `s` to `t` and answered `a`: from its script while that lasts, else freely. -/
def State.answeredOnce (s t : State) (a : Nat) : Prop :=
  match s.t.sendAnswers with
  | x :: r => a = x ∧ t.t.sendAnswers = r ∧ t.draws = s.draws
  | [] => t.t.sendAnswers = [] ∧ t.draws = s.draws + 1

/-- Exactly one frame went out, with the bytes `b`, of which T accepted `a`; `SEQ` advanced by one (R211, R219). -/
def State.sentOnce (s t : State) (b : List (BitVec 8)) (a : Nat) : Prop :=
  s.answeredOnce t a ∧ t.t.sent = s.t.sent ++ [⟨b, a⟩] ∧ t.seq = s.seq + 1 ∧ s.sameAroundSend t

/-- A composite send of one frame (R215 to R218): the host's frames are untouched, `TXF` holds the frame with its
identifier, and the result says whether T accepted all of it. -/
def State.sendsFrame (s t : State) (b : List (BitVec 8)) (val : Nat) (trunc : Bool) : Prop :=
  ∃ a, s.sentOnce t b a ∧ t.f0 = s.f0 ∧ t.f1 = s.f1 ∧ t.txf.content = b ∧ t.txf.rd.val = 0 ∧ s.txf.sameMeta t.txf ∧
    t.result = some (if a = b.length then okResult val [] trunc else errorResult .sendMismatch val trunc)

/-! ### Operations that name a frame -/

/-- The operation reads or writes one header field: it ends with `val` and `out` where the frame has its header, with
`HeaderMissing` where it has not (R121), and changes nothing else. -/
def State.readsHeader (s : State) (f : FrameSel) (i : Instr) (val : Nat) (out : List (BitVec 8)) : Prop :=
  ∃ t, exec i s = .next t ∧ s.onlyResult t ∧
    t.result = some (if 3 ≤ (s.frame f).wr.val then okResult val out false else errorResult .headerMissing 0)

/-- The operation succeeds with `val`, moves no cursor of `F[f]` and touches nothing but that frame's storage. -/
def State.rewrites (s t : State) (f : FrameSel) (val : Nat) : Prop :=
  s.onlyFrame f t ∧ (s.frame f).sameMeta (t.frame f) ∧ (t.frame f).wr = (s.frame f).wr ∧
    (t.frame f).rd = (s.frame f).rd ∧ t.result = some (okResult val [] false)

/-- What a getter answers (R150): `k` of the header's `length` where the payload lies inside the extent. -/
def State.windowResult (s : State) (f : FrameSel) (k : Nat → Result) : Result :=
  if (s.frame f).wr.val < 3 then errorResult .headerMissing 0
  else if (s.frame f).wr.val < 3 + ((s.frame f).byte 0).toNat % 64 then errorResult .lengthMismatch 0
  else k (((s.frame f).byte 0).toNat % 64)

/-- The operation is a getter of `F[f]`: it changes nothing but the result. -/
def State.readsPayload (s : State) (f : FrameSel) (i : Instr) (k : Nat → Result) : Prop :=
  ∃ t, exec i s = .next t ∧ s.onlyResult t ∧ t.result = some (s.windowResult f k)

/-- The frame `y` is `x` with the string `p` stored from offset `a` on as the end of its payload: the extent, the read
cursor clamped to it, the `length` field; every byte but 0, 1 and those of `p` reads as before. Byte 1 is left to the
statement. -/
def Frame.payloadSet (x y : Frame) (a : Nat) (p : List (BitVec 8)) : Prop :=
  y.wr.val = a + p.length ∧ y.rd.val = min x.rd.val y.wr.val ∧ y.byte 0 = BitVec.ofNat 8 (a + p.length - 3) ∧
    y.bytes a p.length = p ∧ (∀ c, c ≠ 0 → c ≠ 1 → (c < a ∨ a + p.length ≤ c) → y.byte c = x.byte c) ∧ x.sameMeta y

/-- Bit `n` of a byte is set to `v` and the other bits are kept. -/
def bitSet (n : Nat) (v : Bool) (b c : BitVec 8) : Prop := ∀ k, k < 8 → c.getLsbD k = if k = n then v else b.getLsbD k

/-- The operations of the families FRM, HDR, DAT, CMD, ACK, NTC and EXP (files 40 to 43 of the spec). -/
def isFrameOp : Instr → Bool
  | .typeDataRaw _ => false
  | .typeDataEnc _ => false
  | .typeCommand _ _ => false
  | .typeAck _ _ => false
  | .typeNotice _ _ => false
  | .typeReserved _ _ _ => false
  | .sndSeq => false
  | .sndXmit _ => false
  | .sndData _ _ _ => false
  | .sndCmd _ _ => false
  | .sndCmdAck _ _ => false
  | .sndAck _ _ => false
  | .sndNotice _ => false
  | .rcvListen _ _ => false
  | .frmClear _ => true
  | .frmPut _ _ => true
  | .frmGet _ => true
  | .frmResetLen _ _ => true
  | .frmExtent _ => true
  | .frmLd _ _ => true
  | .frmSt _ _ _ => true
  | .frmMeta _ => true
  | .hdrReset _ _ => true
  | .hdrLen _ => true
  | .hdrType _ => true
  | .hdrEnc _ => true
  | .hdrFrag _ => true
  | .hdrAckReq _ => true
  | .hdrId _ => true
  | .hdrSetLen _ _ => true
  | .hdrSetType _ _ => true
  | .hdrSetEnc _ _ => true
  | .hdrSetFrag _ _ => true
  | .hdrSetAckReq _ _ => true
  | .hdrSetId _ _ => true
  | .hdrUpdLen _ => true
  | .hdrDispatch _ => true
  | .hdrPack _ _ _ _ _ => true
  | .hdrUnpack _ => true
  | .datSetRaw _ _ => true
  | .datSetEnc _ _ => true
  | .datDecode _ => true
  | .datGet _ => true
  | .cmdSetOp _ _ => true
  | .cmdGetOp _ => true
  | .cmdSetParam _ _ => true
  | .cmdGetParam _ => true
  | .ackSetOp _ _ => true
  | .ackGetOp _ => true
  | .ackSetResp _ _ => true
  | .ackGetResp _ => true
  | .ntcSet _ _ => true
  | .ntcGet _ => true
  | .expEnc _ => true
  | .expDec _ => true

/-- The frame that an operation names (R79), none where it names none. -/
def frameOperand : Instr → Option FrameSel
  | .typeDataRaw _ => none
  | .typeDataEnc _ => none
  | .typeCommand _ _ => none
  | .typeAck _ _ => none
  | .typeNotice _ _ => none
  | .typeReserved _ _ _ => none
  | .sndSeq => none
  | .sndXmit f => some f
  | .sndData _ _ _ => none
  | .sndCmd _ _ => none
  | .sndCmdAck _ _ => none
  | .sndAck _ _ => none
  | .sndNotice _ => none
  | .rcvListen f _ => some f
  | .frmClear f => some f
  | .frmPut f _ => some f
  | .frmGet f => some f
  | .frmResetLen f _ => some f
  | .frmExtent f => some f
  | .frmLd f _ => some f
  | .frmSt f _ _ => some f
  | .frmMeta f => some f
  | .hdrReset f _ => some f
  | .hdrLen f => some f
  | .hdrType f => some f
  | .hdrEnc f => some f
  | .hdrFrag f => some f
  | .hdrAckReq f => some f
  | .hdrId f => some f
  | .hdrSetLen f _ => some f
  | .hdrSetType f _ => some f
  | .hdrSetEnc f _ => some f
  | .hdrSetFrag f _ => some f
  | .hdrSetAckReq f _ => some f
  | .hdrSetId f _ => some f
  | .hdrUpdLen f => some f
  | .hdrDispatch f => some f
  | .hdrPack f _ _ _ _ => some f
  | .hdrUnpack f => some f
  | .datSetRaw f _ => some f
  | .datSetEnc f _ => some f
  | .datDecode f => some f
  | .datGet f => some f
  | .cmdSetOp f _ => some f
  | .cmdGetOp f => some f
  | .cmdSetParam f _ => some f
  | .cmdGetParam f => some f
  | .ackSetOp f _ => some f
  | .ackGetOp f => some f
  | .ackSetResp f _ => some f
  | .ackGetResp f => some f
  | .ntcSet f _ => some f
  | .ntcGet f => some f
  | .expEnc _ => none
  | .expDec _ => none

/-! ### The encoding table (R89 to R91) -/

/-- What an operation takes on the data-in port (R90, R91). -/
inductive DataForm where
  | none
  | string
  /-- A byte string of exactly `n` bytes. -/
  | bytes (n : Nat)
  | budget
deriving DecidableEq, Repr

/-- One row of R90: `opsel`, whether a frame is named, the bits of `imm8` in use, and the data-in form. -/
structure CommandRow where
  opsel : Nat
  frame : Bool
  immBits : Nat
  data : DataForm
deriving DecidableEq, Repr

/-- The rows of FRM. -/
def rowsFrm : List CommandRow :=
  [⟨0x01, true, 0, .none⟩, ⟨0x02, true, 8, .none⟩, ⟨0x03, true, 0, .none⟩, ⟨0x04, true, 8, .none⟩,
    ⟨0x05, true, 0, .none⟩, ⟨0x06, true, 6, .none⟩, ⟨0x07, true, 6, .bytes 1⟩, ⟨0x08, true, 0, .none⟩]

/-- The rows of HDR. -/
def rowsHdr : List CommandRow :=
  [⟨0x10, true, 8, .none⟩, ⟨0x11, true, 0, .none⟩, ⟨0x12, true, 0, .none⟩, ⟨0x13, true, 0, .none⟩,
    ⟨0x14, true, 0, .none⟩, ⟨0x15, true, 0, .none⟩, ⟨0x16, true, 0, .none⟩, ⟨0x17, true, 8, .none⟩,
    ⟨0x18, true, 3, .none⟩, ⟨0x19, true, 1, .none⟩, ⟨0x1A, true, 1, .none⟩, ⟨0x1B, true, 1, .none⟩,
    ⟨0x1C, true, 8, .none⟩, ⟨0x1D, true, 0, .none⟩, ⟨0x1E, true, 0, .none⟩, ⟨0x1F, true, 0, .bytes 4⟩,
    ⟨0x20, true, 0, .none⟩]

/-- The rows of DAT, CMD, ACK, NTC and EXP. -/
def rowsVariants : List CommandRow :=
  [⟨0x28, true, 0, .string⟩, ⟨0x29, true, 0, .string⟩, ⟨0x2A, true, 0, .none⟩, ⟨0x2B, true, 0, .none⟩,
    ⟨0x30, true, 8, .none⟩, ⟨0x31, true, 0, .none⟩, ⟨0x32, true, 0, .string⟩, ⟨0x33, true, 0, .none⟩,
    ⟨0x38, true, 8, .none⟩, ⟨0x39, true, 0, .none⟩, ⟨0x3A, true, 0, .string⟩, ⟨0x3B, true, 0, .none⟩,
    ⟨0x40, true, 0, .string⟩, ⟨0x41, true, 0, .none⟩, ⟨0x48, false, 0, .string⟩, ⟨0x49, false, 0, .string⟩]

/-- The rows of SND and RCV. -/
def rowsAgents : List CommandRow :=
  [⟨0x50, false, 0, .none⟩, ⟨0x51, true, 0, .none⟩, ⟨0x52, false, 2, .string⟩, ⟨0x53, false, 8, .string⟩,
    ⟨0x54, false, 8, .string⟩, ⟨0x55, false, 8, .string⟩, ⟨0x56, false, 0, .string⟩, ⟨0x60, true, 0, .budget⟩]

/-- The 49 rows of R90. -/
def commandRows : List CommandRow := rowsFrm ++ rowsHdr ++ rowsVariants ++ rowsAgents

/-- The data-in bytes are an operand of that form (R91): a string behind its 16-bit length, least significant byte first,
or the four bytes of the budget. -/
def DataForm.accepts : DataForm → List (BitVec 8) → Bool
  | .none, d => d.isEmpty
  | .string, lo :: hi :: p => decide (p.length = lo.toNat + 256 * hi.toNat)
  | .bytes n, lo :: hi :: p => decide (lo.toNat + 256 * hi.toNat = n) && decide (p.length = n)
  | .budget, d => decide (d.length = 4)
  | .string, _ => false
  | .bytes _, _ => false

/-- The word and its data-in bytes keep to the row (R89, R91). -/
def CommandRow.accepts (c : CommandRow) (t : Transaction) : Bool :=
  decide (t.word.toNat / 65536 = c.opsel) && decide (t.word.toNat / 512 % 128 = 0) &&
    (c.frame || decide (t.word.toNat / 256 % 2 = 0)) && decide (t.word.toNat % 256 < 2 ^ c.immBits) &&
    c.data.accepts t.dataIn

/-- The word and its data-in bytes are an operation (R89): some row takes them. -/
def isOperation (t : Transaction) : Bool := commandRows.any fun c => c.accepts t

/-! ### Fragmentation (R213, R214) -/

/-- `K`: input bytes that one Data frame carries. -/
def dataCapacity (encode : Bool) : Nat := if encode then 45 else 61

/-- `ceil(L/K)`. -/
def fragmentCount (encode : Bool) (len : Nat) : Nat := (len + dataCapacity encode - 1) / dataCapacity encode

/-- The input bytes of fragment number `j`. -/
def fragmentInput (encode : Bool) (b : List (BitVec 8)) (j : Nat) : List (BitVec 8) :=
  (b.drop (dataCapacity encode * j)).take (dataCapacity encode)

/-- The payload of fragment number `j`. -/
def fragmentPayload (encode : Bool) (b : List (BitVec 8)) (j : Nat) : List (BitVec 8) :=
  if encode then expEncode (fragmentInput encode b j) else fragmentInput encode b j

/-- The bytes of fragment number `j` when the first identifier is `q`: `length`, then `ENC` and `FRAG`, then the
identifier, then the payload. -/
def fragmentBytes (fragment encode : Bool) (q : BitVec 8) (b : List (BitVec 8)) (j : Nat) : List (BitVec 8) :=
  [BitVec.ofNat 8 (fragmentPayload encode b j).length,
    BitVec.ofNat 8 ((if encode then 32 else 0) + if fragment || decide (j + 1 < fragmentCount encode b.length) then 16 else 0),
    q + BitVec.ofNat 8 j] ++ fragmentPayload encode b j

/-! ### The running receiver -/

/-- A step of `s` is an iteration of a running `RCV.LISTEN` (R243). -/
def State.iterates (s : State) : Prop := s.sampleRst.1 = .released ∧ s.listening = true ∧ s.rxState ≠ .done

/-- Ticks since the last measurement, modulo 2^32 (R244). -/
def State.elapsed (s : State) : Nat := (s.now.1 - s.rxLast).toNat

/-- The iteration finds the budget at zero (R244, R245). -/
def State.outOfTime (s : State) : Bool := !s.rxUnbounded && decide (s.rxBudget.toNat ≤ s.elapsed)

/-- The budget after the accounting (R244). -/
def State.charged (s : State) : Nat := if s.rxUnbounded then s.rxBudget.toNat else s.rxBudget.toNat - s.elapsed

/-- The bytes that the iteration's one `T.avail` query finds pending (R63, R311). -/
def State.available (s : State) : List (BitVec 8) := s.sampleRst.2.accountTime.arrive.t.inbound

/-- What an iteration leaves alone: the other frames, the sender, the host's side, and what T was given. -/
def State.sameAroundReceive (s t : State) : Prop :=
  (∀ g, g ≠ s.rxFrame → t.frame g = s.frame g) ∧ t.txf = s.txf ∧ t.seq = s.seq ∧ t.rxUnbounded = s.rxUnbounded ∧
    t.rxFrame = s.rxFrame ∧ t.host = s.host ∧ t.cfg = s.cfg ∧ t.rst = s.rst.tail ∧ t.rxLast = s.now.1 ∧
    t.t.sent = s.t.sent ∧ t.t.executed = s.t.executed ∧ t.t.sendAnswers = s.t.sendAnswers ∧
    t.t.execAnswers = s.t.execAnswers

/-- The operation goes on: no result, the budget charged but not extended, `st` the next state of the receiver and
`inb` the bytes left in T. -/
def State.goesOn (s t : State) (st : RxState) (inb : List (BitVec 8)) : Prop :=
  s.sameAroundReceive t ∧ t.listening = true ∧ t.result = s.result ∧ t.rxBudget.toNat = s.charged ∧
    t.rxExtended = s.rxExtended ∧ t.rxState = st ∧ t.t.inbound = inb

/-- The failure exit (R263): the working frame cleared, its metadata kept, the receiver idle, the operation ended with
the error and, where nothing else is said, no value. -/
def State.failsWith (s t : State) (c : Cause) (val : Nat := 0) : Prop :=
  t.result = some (errorResult c val) ∧ (t.frame s.rxFrame).isClear = true ∧
    (s.frame s.rxFrame).sameMeta (t.frame s.rxFrame) ∧ t.rxState = .idle ∧ t.listening = false

/-- Everything but the working frame's storage and cursors, `rxState`, `listening` and the result agrees. -/
def State.sameAroundExit (s t : State) : Prop :=
  (∀ g, g ≠ s.rxFrame → t.frame g = s.frame g) ∧ t.txf = s.txf ∧ t.seq = s.seq ∧ t.rxBudget = s.rxBudget ∧
    t.rxUnbounded = s.rxUnbounded ∧ t.rxLast = s.rxLast ∧ t.rxExtended = s.rxExtended ∧ t.rxFrame = s.rxFrame ∧
    s.sameEnvironment t

/-- Ticks that a sequence of samples adds up to, starting from the sample `last` (R244). -/
def elapsedTotal : BitVec 32 → List (BitVec 32) → Nat
  | _, [] => 0
  | last, x :: r => (x - last).toNat + elapsedTotal x r

/-- A hexadecimal digit of the upper-case form (R9, R78). -/
def hexDigit (n : Nat) : BitVec 8 := if n < 10 then BitVec.ofNat 8 (0x30 + n) else BitVec.ofNat 8 (0x41 + (n - 10))

/-- Two hexadecimal digits, the most significant first. -/
def hexText2 (v : BitVec 8) : List (BitVec 8) := [hexDigit (v.toNat / 16), hexDigit (v.toNat % 16)]

/-- Four hexadecimal digits, the most significant first. -/
def hexText4 (v : BitVec 16) : List (BitVec 8) :=
  [hexDigit (v.toNat / 4096), hexDigit (v.toNat / 256 % 16), hexDigit (v.toNat / 16 % 16), hexDigit (v.toNat % 16)]

/-- The frame bytes on the wire, from the frame's byte number `k` on (R88). -/
def wireBody (p : Config.WireProfile) : Nat → List (BitVec 8) → List (BitVec 8)
  | _, [] => []
  | k, b :: r =>
    match p with
    | .rawBinary => b :: wireBody p (k + 1) r
    | .asciiHex => (if k = 0 then [] else [Config.hexDelim]) ++ hexText2 b ++ wireBody p (k + 1) r

/-- The inbound wire text of a frame (R88): `NN,MMMM,SS:`, the frame bytes `B`, CR LF. -/
def wireText (p : Config.WireProfile) (node : BitVec 8) (moduleId : BitVec 16) (sig : BitVec 8)
    (B : List (BitVec 8)) : List (BitVec 8) :=
  hexText2 node ++ [0x2C] ++ hexText4 moduleId ++ [0x2C] ++ hexText2 sig ++ [0x3A] ++ wireBody p 0 B ++ [0x0D, 0x0A]

end Sys2Proof.Machine
end

