-- ==== Sys2Proof/Certificates/Slice0/Obligations.lean ====
section
/-! DEFINITION. The statements for the provers. A statement marked "spec's own choice" in its docstring rests on a point
that the spec decides itself (92_eei_decisions.md) or derives; the decision, or the log entry of the model's own choice, is named. -/

section

open Sys2Proof Sys2Proof.Machine

/-! ### Words and instructions -/

/-- Words written out from R71 to R74, R89 and R90: a frame operation with its frame and byte, a mutator with a flag,
`SND.DATA` with both options and a string, `RCV.LISTEN` with the budget -1 (least significant byte first), a word that
is no operation, and two headers. The command word is the spec's own choice (D2, D37). -/
def Obligations.DecodesWords : Prop :=
  decode (.command ⟨0x020141, []⟩) = .ok (.frmPut .f1 0x41) ∧
    decode (.command ⟨0x190001, []⟩) = .ok (.hdrSetEnc .f0 true) ∧
    decode (.command ⟨0x520003, [0x02, 0x00, 0x48, 0x49]⟩) = .ok (.sndData true true [0x48, 0x49]) ∧
    decode (.command ⟨0x600100, [0xFE, 0xFF, 0xFF, 0xFF]⟩) = .ok (.rcvListen .f1 0xFFFFFFFE) ∧
    decode (.command ⟨0x000000, []⟩) = .error (.unassignedOpsel 0) ∧
    decode (.header 0x052010) = .ok (.typeDataEnc ⟨0, 5, 0, false, false, 0x10⟩) ∧
    decode (.header 0xC5D9FF) = .ok (.typeCommand false ⟨3, 5, 3, true, true, 0xFF⟩)

/-- Decoding what the encoder writes gives the instruction back, for every instruction and every operand: no bit of an
encoding is dropped. -/
def Obligations.DecodeOfEncode : Prop := ∀ i : Instr, wellFormed i = true → decode (encode i) = .ok i

/-- Every word has one meaning: what decodes to an instruction is its encoding, data-in bytes and unused bits
included, and the instruction is well formed. -/
def Obligations.EncodeOfDecode : Prop :=
  ∀ (w : Fetched) (i : Instr), decode w = .ok i → encode i = w ∧ wellFormed i = true

/-- The header rows by `type` and `ENC` (R74, R80): each field of the instruction is the field of the three header bytes
that R71 to R73 name. -/
def Obligations.HeaderWordFields : Prop :=
  ∀ x : Frame, ∃ h : HeaderFields,
    h.unused0.toNat = (x.byte 0).toNat / 64 ∧ h.length.toNat = (x.byte 0).toNat % 64 ∧
      h.unused1.toNat = (x.byte 1).toNat / 64 ∧ h.frag = (x.byte 1).getLsbD 4 ∧ h.ackReq = (x.byte 1).getLsbD 3 ∧
      h.id = x.byte 2 ∧
      decode (.header x.headerWord) = .ok
        (match (x.byte 1).toNat % 8 with
        | 0 => if (x.byte 1).getLsbD 5 then .typeDataEnc h else .typeDataRaw h
        | 1 => .typeCommand ((x.byte 1).getLsbD 5) h
        | 2 => .typeAck ((x.byte 1).getLsbD 5) h
        | 3 => .typeNotice ((x.byte 1).getLsbD 5) h
        | n => .typeReserved (BitVec.ofNat 2 (n - 4)) ((x.byte 1).getLsbD 5) h)

/-- What is on the command port is an operation exactly where the table of R90, the fields of R89 and the data-in forms of
R91 say so: an `opsel` of the table, bits 15 to 9 clear, bit 8 clear where no frame is named, an `imm8` in its range, and
data-in bytes that are the operand. Everything else is rejected, and a step that finds it refuses it. The words are the
spec's own (D2, D34); the refusal is the model's choice (notes/assumptions/13) for the spec's "not accepted" (U9), and that
too few or too many data-in bytes are rejected with it. -/
def Obligations.NotAcceptedWords : Prop :=
  ∀ t : Transaction,
    (isOperation t = true → ∃ i, decode (.command t) = .ok i) ∧
      (isOperation t = false → ∃ e, decode (.command t) = .error e) ∧
      ∀ (e : Reject) (s : State) (r : List Transaction), decode (.command t) = .error e →
        s.sampleRst.1 = .released → s.listening = false → s.host = t :: r → step s = .refused (.notAccepted e)

/-- A step runs the decoded instruction. While no operation runs, the word presented on the command port is executed,
with that word taken from the port; while a completed frame waits (state `Done`), its header is executed. The sample of
the reset input is taken in either case and nothing else is added; with nothing presented only that sample is taken
(R345). The list of presented words, the step that waits and the step for `Done` are the model's own
(notes/assumptions/3, 4). -/
def Obligations.StepRunsDecoded : Prop :=
  ∀ (s : State) (i : Instr), s.sampleRst.1 = .released →
    (∀ (t : Transaction) (r : List Transaction), s.listening = false → s.host = t :: r →
        decode (.command t) = .ok i → step s = exec i { s.sampleRst.2 with host := r }) ∧
      (s.listening = true → s.rxState = .done → decode (.header (s.frame s.rxFrame).headerWord) = .ok i →
        step s = exec i s.sampleRst.2) ∧
      (s.listening = false → s.host = [] → step s = .next { s with rst := s.rst.tail })

/-! ### Reset, the invariant, and what no operation does -/

/-- The state after reset (R36, R341, R343, R344), where the spec gives a value; the values are the spec's own choice
(D20, D32). -/
def Obligations.ResetValues : Prop :=
  (∀ a, State.reset.f0.byte a = 0 ∧ State.reset.f1.byte a = 0 ∧ State.reset.txf.byte a = 0) ∧
    State.reset.f0.isClear = true ∧ State.reset.f1.isClear = true ∧ State.reset.txf.isClear = true ∧
    State.reset.seq = 0 ∧ State.reset.rxState = .idle ∧ State.reset.listening = false

/-- The invariant holds after reset (R22). -/
def Obligations.ResetSatisfiesInvariant : Prop := State.reset.inv = true

/-- Every step keeps the invariant: read cursor at or below write cursor, storage in canonical form, an idle receiver
while nothing runs, and while `RCV.LISTEN` runs a working frame that is as far as the receiver's state says, with a
length from 1 to 61 and a consistent extent once it is complete (R22, R33, R242, R249 to R257, R263). -/
def Obligations.StepKeepsInvariant : Prop := ∀ s t : State, s.inv = true → step s = .next t → t.inv = true

/-- No access is out of range and no condition is fatal (R52, R300): under the invariant a step goes on, or the command
port does not accept what is presented. The refusal is the model's choice (notes/assumptions/13). -/
def Obligations.StepNeverFaults : Prop :=
  ∀ s : State, s.inv = true → (∃ t, step s = .next t) ∨ ∃ e, step s = .refused (.notAccepted e)

/-- The reset input (R340, R346, R347): whatever runs is abandoned without a result, the registers that the spec gives a
reset value have it, and neither T nor the tick input nor what the host presents is touched. That a pulse is one sample
of a list, and that `result` is emptied, is the model's own (notes/assumptions/10, 12). -/
def Obligations.ResetPulse : Prop :=
  ∀ (s : State) (r : List Rst), s.rst = .asserted :: r →
    ∃ t, step s = .next t ∧ t.f0.isClear = true ∧ t.f1.isClear = true ∧ t.txf.isClear = true ∧ t.seq = 0 ∧
      t.rxState = .idle ∧ t.listening = false ∧ t.result = none ∧ t.rst = r ∧ t.host = s.host ∧ t.ticks = s.ticks ∧
      t.t = s.t ∧ t.draws = s.draws ∧ t.cfg = s.cfg

/-- A reset that strikes while the step's operation runs (R340, R346; U18), after `k` of its calls of T and of the tick
input: the operation is abandoned without a result, its word has been taken, the registers have their reset values. What
was handed to T stays handed over, and no more is: of the frames of a send the first `k`; of an intercept the module
command first, then the Ack; an iteration of RCV.LISTEN hands over nothing. Where the operation makes no more than `k`
calls, T and the tick input are as the whole operation leaves them. That a reset is abandonment is the spec's own choice
(D32); that it falls between two calls is the model's (notes/assumptions/10). -/
def Obligations.ResetDuringOperation : Prop :=
  ∀ (s t : State) (k : Nat) (r : List Rst), s.rst = .during k :: r → s.sampleRst.2.run = .next t →
    ∃ u, step s = .next u ∧ u.f0.isClear = true ∧ u.f1.isClear = true ∧ u.txf.isClear = true ∧ u.seq = 0 ∧
      u.rxState = .idle ∧ u.listening = false ∧ u.result = none ∧ u.rst = r ∧ u.host = t.host ∧ u.cfg = s.cfg ∧
      (s.listening = false → u.t.executed = s.t.executed ∧
        u.t.sent = s.t.sent ++ (t.t.sent.drop s.t.sent.length).take k) ∧
      (s.listening = true → s.rxState = .done →
        u.t.executed = s.t.executed ++ (t.t.executed.drop s.t.executed.length).take k ∧
          u.t.sent = s.t.sent ++ (t.t.sent.drop s.t.sent.length).take (k - 1)) ∧
      (s.listening = true → s.rxState ≠ .done → u.t.executed = s.t.executed ∧ u.t.sent = s.t.sent) ∧
      ((s.sampleRst.2.callsTo t).length ≤ k → u.t = t.t ∧ u.ticks = t.ticks ∧ u.draws = t.draws)

/-- No FRM, HDR, DAT, CMD, ACK, NTC or EXP operation touches `SEQ`, the receiver's registers, the transport, the
metadata or another frame than the one it names (the preambles of files 40 to 43), and each of them completes in every
state. -/
def Obligations.FrameOpsTouchOnlyTheirFrame : Prop :=
  ∀ (i : Instr) (s : State), isFrameOp i = true →
    ∃ t, exec i s = .next t ∧ (∀ g, frameOperand i ≠ some g → t.frame g = s.frame g) ∧
      (∀ g, (s.frame g).sameMeta (t.frame g)) ∧ t.txf = s.txf ∧ s.sameRegisters t ∧ s.sameEnvironment t

/-- Errors are precise (R313): an operation of files 40 to 43 that ends in an error has changed nothing but the result.
A derivation of the spec. -/
def Obligations.ErrorsChangeNothing : Prop :=
  ∀ (i : Instr) (s t : State), isFrameOp i = true → exec i s = .next t →
    (∃ r, t.result = some r ∧ r.status ≠ .ok) → s.onlyResult t

/-- Metadata are set only by the receiver (R24 to R27), each field in its own state, and only those of the frame it
receives into. That nothing else resets them is the spec's own choice (D19). -/
def Obligations.MetadataSetOnlyByReceiver : Prop :=
  ∀ s t : State, s.sampleRst.1 = .released → step s = .next t →
    s.txf.sameMeta t.txf ∧
      ∀ g,
        ((t.frame g).node = (s.frame g).node ∨ (s.listening = true ∧ g = s.rxFrame ∧ s.rxState = .rxNode)) ∧
        ((t.frame g).moduleId = (s.frame g).moduleId ∨
          (s.listening = true ∧ g = s.rxFrame ∧ s.rxState = .rxModule)) ∧
        ((t.frame g).sig = (s.frame g).sig ∨ (s.listening = true ∧ g = s.rxFrame ∧ s.rxState = .rxSignal))

/-- The sequence property (R221): the frames handed to `T.send` by any instruction but `SND.SEQ`, the receiver's Ack
included, carry consecutive identifiers from `SEQ` on, whether T accepted them or not, and `SEQ` has advanced by their
number. A derivation of the spec. -/
def Obligations.SequenceProperty : Prop :=
  ∀ (i : Instr) (s t : State), s.inv = true → i ≠ .sndSeq → exec i s = .next t →
    ∃ l, t.t.sent = s.t.sent ++ l ∧ t.seq = s.seq + BitVec.ofNat 8 l.length ∧
      ∀ j x, l[j]? = some x → x.bytes[2]? = some (s.seq + BitVec.ofNat 8 j)

/-- The codes of R301: every status, and every cause with the status it belongs to. The numbers are the spec's own
choice (D30). -/
def Obligations.StatusAndCauseCodes : Prop :=
  [Status.ok, .transportError, .protocolError, .timeout].map (fun x => (statusCode x).toNat) = [0, 1, 2, 3] ∧
    [Cause.none, .headerMissing, .lengthRange, .fieldRange, .unknownPacketType, .lengthMismatch, .emptyPayload,
        .badEncoding, .decodedTooLong, .lengthZero, .lengthTooLarge, .malformedField, .sendMismatch, .execFailed,
        .busyExceeded, .budgetExhausted].map (fun x => ((causeCode x).toNat, (statusCode (statusOf x)).toNat)) =
      [(0, 0), (1, 2), (2, 2), (3, 2), (4, 2), (5, 2), (6, 2), (7, 2), (8, 2), (9, 2), (10, 2), (11, 2), (16, 1),
        (17, 1), (18, 1), (24, 3)]

/-! ### FRM -/

/-- `FRM.PUT` (R101): appends while capacity remains, else is a no-op that reports 0 with `trunc`. -/
def Obligations.FrmPut : Prop :=
  ∀ (f : FrameSel) (b : BitVec 8) (s : State), (s.frame f).ok = true →
    ∃ t, exec (.frmPut f b) s = .next t ∧ s.onlyFrame f t ∧ (s.frame f).sameMeta (t.frame f) ∧
      (t.frame f).rd = (s.frame f).rd ∧
      (if (s.frame f).wr.val < 64 then
        t.result = some (okResult 1 [] false) ∧ (t.frame f).wr.val = (s.frame f).wr.val + 1 ∧
          (t.frame f).byte (s.frame f).wr.val = b ∧
          (s.frame f).sameBytesOutside (t.frame f) (s.frame f).wr.val ((s.frame f).wr.val + 1)
      else t.result = some (okResult 0 [] true) ∧ t.frame f = s.frame f)

/-- `FRM.GET` (R102): the spec's own operation (D17). The read cursor moves by one; storage and extent stay. -/
def Obligations.FrmGet : Prop :=
  ∀ (f : FrameSel) (s : State), ∃ t, exec (.frmGet f) s = .next t ∧ s.onlyFrame f t ∧
    (s.frame f).sameMeta (t.frame f) ∧ (t.frame f).wr = (s.frame f).wr ∧ (t.frame f).buf = (s.frame f).buf ∧
    (if (s.frame f).rd.val < (s.frame f).wr.val then
      t.result = some (okResult 1 [(s.frame f).byte (s.frame f).rd.val] false) ∧
        (t.frame f).rd.val = (s.frame f).rd.val + 1
    else t.result = some (okResult 0 [] false) ∧ (t.frame f).rd = (s.frame f).rd)

/-- `FRM.RESETLEN` (R103): `min(n, 64)`, the read cursor clamped, storage unchanged. Returning the new extent is the
spec's own choice (D13). -/
def Obligations.FrmResetLen : Prop :=
  ∀ (f : FrameSel) (n : BitVec 8) (s : State), ∃ t, exec (.frmResetLen f n) s = .next t ∧ s.onlyFrame f t ∧
    (s.frame f).sameMeta (t.frame f) ∧ (t.frame f).buf = (s.frame f).buf ∧ (t.frame f).wr.val = min n.toNat 64 ∧
    (t.frame f).rd.val = min (s.frame f).rd.val (min n.toNat 64) ∧
    t.result = some (okResult (min n.toNat 64) [] false)

/-- `FRM.EXTENT`, `FRM.LD`, `FRM.META` (R104, R106, R108) read and change nothing. The read cursor on data-out, the reach
of `FRM.LD` and the layout of `FRM.META` are the spec's own choice (D17, D18, D25). -/
def Obligations.FrmReads : Prop :=
  ∀ (f : FrameSel) (s : State),
    (∃ t, exec (.frmExtent f) s = .next t ∧ s.onlyResult t ∧
        t.result = some (okResult (s.frame f).wr.val [BitVec.ofNat 8 (s.frame f).rd.val] false)) ∧
      (∀ i : BitVec 6, ∃ t, exec (.frmLd f i) s = .next t ∧ s.onlyResult t ∧
        t.result = some (okResult ((s.frame f).byte i.toNat).toNat [] false)) ∧
      ∃ t, exec (.frmMeta f) s = .next t ∧ s.onlyResult t ∧
        t.result = some (okResult (s.frame f).moduleId.toNat
          [(s.frame f).node, BitVec.ofNat 8 ((s.frame f).moduleId.toNat / 256),
            BitVec.ofNat 8 ((s.frame f).moduleId.toNat % 256), (s.frame f).sig] false)

/-- `FRM.ST` (R107): one byte, no cursor, whatever the extent (the spec's own choice, D18). -/
def Obligations.FrmSt : Prop :=
  ∀ (f : FrameSel) (i : BitVec 6) (v : BitVec 8) (s : State), (s.frame f).ok = true →
    ∃ t, exec (.frmSt f i v) s = .next t ∧ s.rewrites t f 0 ∧ (t.frame f).byte i.toNat = v ∧
      (s.frame f).sameBytesOutside (t.frame f) i.toNat (i.toNat + 1)

/-! ### HDR -/

/-- The six header readers (R122 to R127): the field of byte 0, 1 or 2, as arithmetic on that byte; `HeaderMissing`
without a header. -/
def Obligations.HdrReaders : Prop :=
  ∀ (f : FrameSel) (s : State),
    s.readsHeader f (.hdrLen f) (((s.frame f).byte 0).toNat % 64) [] ∧
      s.readsHeader f (.hdrType f) (((s.frame f).byte 1).toNat % 8) [] ∧
      s.readsHeader f (.hdrEnc f) (((s.frame f).byte 1).toNat / 32 % 2) [] ∧
      s.readsHeader f (.hdrFrag f) (((s.frame f).byte 1).toNat / 16 % 2) [] ∧
      s.readsHeader f (.hdrAckReq f) (((s.frame f).byte 1).toNat / 8 % 2) [] ∧
      s.readsHeader f (.hdrId f) ((s.frame f).byte 2).toNat []

/-- `HDR.DISPATCH` (R136): the variant's number, `UnknownPacketType` for 4 to 7, `HeaderMissing` first. -/
def Obligations.HdrDispatch : Prop :=
  ∀ (f : FrameSel) (s : State), ∃ t, exec (.hdrDispatch f) s = .next t ∧ s.onlyResult t ∧
    t.result = some
      (if (s.frame f).wr.val < 3 then errorResult .headerMissing 0
      else if 4 ≤ ((s.frame f).byte 1).toNat % 8 then errorResult .unknownPacketType 0
      else okResult (((s.frame f).byte 1).toNat % 8) [] false)

/-- `FRM.CLEAR` and `HDR.RESET` (R100, R120): all storage zero, cursors 0, then for `HDR.RESET` the extent `min(3 + n, 64)`,
`length` not set. The clamp's report is the spec's own choice (D11), and so is that the metadata are kept (D19). -/
def Obligations.ClearAndReset : Prop :=
  ∀ (f : FrameSel) (n : BitVec 8) (s : State),
    (∃ t, exec (.frmClear f) s = .next t ∧ s.onlyFrame f t ∧ (∀ a, (t.frame f).byte a = 0) ∧
        (t.frame f).wr.val = 0 ∧ (t.frame f).rd.val = 0 ∧ (s.frame f).sameMeta (t.frame f) ∧
        t.result = some (okResult 0 [] false)) ∧
      ∃ t, exec (.hdrReset f n) s = .next t ∧ s.onlyFrame f t ∧ (∀ a, (t.frame f).byte a = 0) ∧
        (t.frame f).wr.val = min (3 + n.toNat) 64 ∧ (t.frame f).rd.val = 0 ∧ (s.frame f).sameMeta (t.frame f) ∧
        t.result = some (okResult (min n.toNat 61) [] (decide (61 < n.toNat)))

/-- Without a header every header mutator, `HDR.PACK` and `SND.XMIT` raises `HeaderMissing` before any other cause and
changes nothing (R121). That the mutators check is the spec's own choice (D8). -/
def Obligations.MutatorsNeedHeader : Prop :=
  ∀ (f : FrameSel) (s : State) (i : Instr), (s.frame f).wr.val < 3 →
    ((∃ v, i = .hdrSetLen f v) ∨ (∃ v, i = .hdrSetType f v) ∨ (∃ b, i = .hdrSetEnc f b) ∨ (∃ b, i = .hdrSetFrag f b) ∨
      (∃ b, i = .hdrSetAckReq f b) ∨ (∃ v, i = .hdrSetId f v) ∨ i = .hdrUpdLen f ∨
      (∃ l g y d, i = .hdrPack f l g y d) ∨ i = .sndXmit f) →
    ∃ t, exec i s = .next t ∧ s.onlyResult t ∧ t.result = some (errorResult .headerMissing 0)

/-- `HDR.SETLEN` (R129): 0 to 63 stored whole, above 63 rejected and nothing stored; `f.wr` does not move. The spec's own
reading of the source's defect (D10). -/
def Obligations.HdrSetLen : Prop :=
  ∀ (f : FrameSel) (v : BitVec 8) (s : State), (s.frame f).ok = true → 3 ≤ (s.frame f).wr.val →
    ∃ t, exec (.hdrSetLen f v) s = .next t ∧
      (if v.toNat ≤ 63 then
        s.rewrites t f v.toNat ∧ (t.frame f).byte 0 = v ∧ (s.frame f).sameBytesOutside (t.frame f) 0 1
      else s.onlyResult t ∧ t.result = some (errorResult .lengthRange 0))

/-- The mutators of byte 1 (R131 to R134): the type is replaced, not ORed, and the flags and bits 7, 6 are kept; one flag
bit is written and the others are kept. Writing types 4 to 7 as they stand is the spec's own choice (D9), and so is that
the mutators run only where the frame has its header (D8). -/
def Obligations.HdrByte1Mutators : Prop :=
  ∀ (f : FrameSel) (y : BitVec 3) (b : Bool) (s : State), (s.frame f).ok = true → 3 ≤ (s.frame f).wr.val →
    (∃ t, exec (.hdrSetType f y) s = .next t ∧ s.rewrites t f y.toNat ∧
        ((t.frame f).byte 1).toNat = ((s.frame f).byte 1).toNat / 8 * 8 + y.toNat ∧
        (s.frame f).sameBytesOutside (t.frame f) 1 2) ∧
      (∃ t, exec (.hdrSetEnc f b) s = .next t ∧ s.rewrites t f b.toNat ∧
        bitSet 5 b ((s.frame f).byte 1) ((t.frame f).byte 1) ∧ (s.frame f).sameBytesOutside (t.frame f) 1 2) ∧
      (∃ t, exec (.hdrSetFrag f b) s = .next t ∧ s.rewrites t f b.toNat ∧
        bitSet 4 b ((s.frame f).byte 1) ((t.frame f).byte 1) ∧ (s.frame f).sameBytesOutside (t.frame f) 1 2) ∧
      ∃ t, exec (.hdrSetAckReq f b) s = .next t ∧ s.rewrites t f b.toNat ∧
        bitSet 3 b ((s.frame f).byte 1) ((t.frame f).byte 1) ∧ (s.frame f).sameBytesOutside (t.frame f) 1 2

/-- `HDR.SETID` and `HDR.UPDLEN` (R130, R135): byte 2, and byte 0, which becomes the payload extent, after which the
frame is consistent (R14). They run where the frame has its header, which is the spec's own condition (D8). -/
def Obligations.HdrSetIdAndUpdLen : Prop :=
  ∀ (f : FrameSel) (v : BitVec 8) (s : State), (s.frame f).ok = true → 3 ≤ (s.frame f).wr.val →
    (∃ t, exec (.hdrSetId f v) s = .next t ∧ s.rewrites t f v.toNat ∧ (t.frame f).byte 2 = v ∧
        (s.frame f).sameBytesOutside (t.frame f) 2 3) ∧
      ∃ t, exec (.hdrUpdLen f) s = .next t ∧ s.rewrites t f ((s.frame f).wr.val - 3) ∧
        ((t.frame f).byte 0).toNat = (s.frame f).wr.val - 3 ∧ (t.frame f).consistent = true ∧
        (s.frame f).sameBytesOutside (t.frame f) 0 1

/-- `HDR.PACK` (R75, R137): the checks in their order, then the three bytes with the unused bits 0; and `HDR.UNPACK`
(R76, R128): the fields of any three bytes, or `HeaderMissing`. The data-in and data-out forms and the checks are the
spec's own choice (D2, D5, D8, D10). -/
def Obligations.HdrPackAndUnpack : Prop :=
  ∀ (f : FrameSel) (len flags type id : BitVec 8) (s : State), (s.frame f).ok = true →
    (3 ≤ (s.frame f).wr.val → ∃ t, exec (.hdrPack f len flags type id) s = .next t ∧
        (if 63 < len.toNat then s.onlyResult t ∧ t.result = some (errorResult .lengthRange 0)
        else if 7 < flags.toNat ∨ 7 < type.toNat then s.onlyResult t ∧ t.result = some (errorResult .fieldRange 0)
        else
          s.rewrites t f 0 ∧ (t.frame f).byte 0 = len ∧
            ((t.frame f).byte 1).toNat = flags.toNat * 8 + type.toNat ∧ (t.frame f).byte 2 = id ∧
            (s.frame f).sameBytesOutside (t.frame f) 0 3)) ∧
      s.readsHeader f (.hdrUnpack f) (((s.frame f).byte 0).toNat % 64)
        [BitVec.ofNat 8 (((s.frame f).byte 0).toNat % 64), BitVec.ofNat 8 (((s.frame f).byte 1).toNat / 8 % 8),
          BitVec.ofNat 8 (((s.frame f).byte 1).toNat % 8), (s.frame f).byte 2]

/-- The law of R76: packing a header and unpacking it gives back length, flags, type and identifier, for every tuple
of the domain. A derivation of the spec (with D5). -/
def Obligations.PackThenUnpack : Prop :=
  ∀ (f : FrameSel) (len flags type id : BitVec 8) (s : State), (s.frame f).ok = true → 3 ≤ (s.frame f).wr.val →
    len.toNat ≤ 63 → flags.toNat ≤ 7 → type.toNat ≤ 7 →
    ∃ t u, exec (.hdrPack f len flags type id) s = .next t ∧ exec (.hdrUnpack f) t = .next u ∧
      u.result = some (okResult len.toNat [len, flags, type, id] false)

/-! ### DAT, CMD, ACK, NTC -/

/-- `DAT.SETRAW` (R151): at most 61 bytes, `ENC` cleared, the rest of the header kept. Keeping it, and the value returned,
are the spec's own choice (D13). -/
def Obligations.DatSetRaw : Prop :=
  ∀ (f : FrameSel) (b : List (BitVec 8)) (s : State), (s.frame f).ok = true →
    ∃ t, exec (.datSetRaw f b) s = .next t ∧ s.onlyFrame f t ∧
      (s.frame f).payloadSet (t.frame f) 3 (b.take 61) ∧
      bitSet 5 false ((s.frame f).byte 1) ((t.frame f).byte 1) ∧
      t.result = some (okResult (min b.length 61) [] (decide (61 < b.length)))

/-- `DAT.SETENC` (R152): the encoding of at most 45 bytes, `ENC` set, the count of input bytes consumed. The codec is the
spec's own choice (D15; notes/assumptions/15), and so is what is kept of the header (D13). -/
def Obligations.DatSetEnc : Prop :=
  ∀ (f : FrameSel) (b : List (BitVec 8)) (s : State), (s.frame f).ok = true →
    ∃ t, exec (.datSetEnc f b) s = .next t ∧ s.onlyFrame f t ∧
      (s.frame f).payloadSet (t.frame f) 3 (expEncode (b.take 45)) ∧
      bitSet 5 true ((s.frame f).byte 1) ((t.frame f).byte 1) ∧
      t.result = some (okResult (min b.length 45) [] (decide (45 < b.length)))

/-- `DAT.DECODE` (R153): the no-op where `ENC` is clear, the errors in their order with nothing changed, and the decoding
in place; `DecodedTooLong` never comes, since with this codec no payload in a frame decodes to more than 45 bytes. What
decodes, and that bound, hold of the codec that the spec chose (D15; notes/assumptions/15); another could reach
`DecodedTooLong` (R153). The failing cases are the spec's own choice too (D14, D16). -/
def Obligations.DatDecode : Prop :=
  ∀ (f : FrameSel) (s : State), (s.frame f).ok = true →
    ∃ t, exec (.datDecode f) s = .next t ∧
      (if (s.frame f).wr.val < 3 then s.onlyResult t ∧ t.result = some (errorResult .headerMissing 0)
      else if (s.frame f).wr.val < 3 + ((s.frame f).byte 0).toNat % 64 ∧ (s.frame f).byte 1 &&& 0x20 ≠ 0 then
        s.onlyResult t ∧ t.result = some (errorResult .lengthMismatch 0)
      else if (s.frame f).byte 1 &&& 0x20 = 0 then
        s.onlyResult t ∧ t.result = some (okResult (((s.frame f).byte 0).toNat % 64) [] false)
      else
        match expDecode ((s.frame f).bytes 3 (((s.frame f).byte 0).toNat % 64)) with
        | none => s.onlyResult t ∧ t.result = some (errorResult .badEncoding 0)
        | some d =>
          d.length ≤ 45 ∧ s.onlyFrame f t ∧ (s.frame f).payloadSet (t.frame f) 3 d ∧
            bitSet 5 false ((s.frame f).byte 1) ((t.frame f).byte 1) ∧ t.result = some (okResult d.length [] false))

/-- The getters of the variants (R154, R156, R158, R161, R163, R166): the window check first, then `EmptyPayload` for a
Command or Ack without its opcode; the strings with one 0x00 after them. The checks are the spec's own choice (D14), and
so are the terminator on the output side and the getter for Data (D7, D38). -/
def Obligations.PayloadGetters : Prop :=
  ∀ (f : FrameSel) (s : State),
    s.readsPayload f (.datGet f) (fun n => okResult n ((s.frame f).bytes 3 n) false) ∧
      s.readsPayload f (.ntcGet f) (fun n => okResult n ((s.frame f).bytes 3 n ++ [0]) false) ∧
      (∀ i : Instr, i = .cmdGetOp f ∨ i = .ackGetOp f →
        s.readsPayload f i fun n =>
          if n = 0 then errorResult .emptyPayload 0 else okResult ((s.frame f).byte 3).toNat [] false) ∧
      ∀ i : Instr, i = .cmdGetParam f ∨ i = .ackGetResp f →
        s.readsPayload f i fun n =>
          if n = 0 then errorResult .emptyPayload 0
          else okResult (n - 1) ((s.frame f).bytes 4 (n - 1) ++ [0]) false

/-- `CMD.SETOP` and `ACK.SETOP` (R155, R160): the opcode at offset 3, a frame that is too short extended to four bytes,
a longer one left as long as it is. The extension is the spec's own choice (D13). -/
def Obligations.SetOpcode : Prop :=
  ∀ (f : FrameSel) (op : BitVec 8) (s : State) (i : Instr), (s.frame f).ok = true →
    i = .cmdSetOp f op ∨ i = .ackSetOp f op →
    ∃ t, exec i s = .next t ∧ s.onlyFrame f t ∧ (s.frame f).sameMeta (t.frame f) ∧
      (t.frame f).wr.val = max (s.frame f).wr.val 4 ∧ (t.frame f).rd = (s.frame f).rd ∧ (t.frame f).byte 3 = op ∧
      ((t.frame f).byte 0).toNat = (t.frame f).wr.val - 3 ∧
      (∀ a, a ≠ 0 → a ≠ 3 → (t.frame f).byte a = (s.frame f).byte a) ∧ t.result = some (okResult op.toNat [] false)

/-- `CMD.SETPARAM` and `ACK.SETRESP` (R157, R162): at most 60 bytes after the opcode, which is not written; the flags,
type, identifier and every other byte are kept, which is the spec's own choice (R168, D13), and so are the capacity and
that the string is copied as it is, without a terminator (R159, D6, D7). -/
def Obligations.SetString : Prop :=
  ∀ (f : FrameSel) (b : List (BitVec 8)) (s : State) (i : Instr), (s.frame f).ok = true →
    i = .cmdSetParam f b ∨ i = .ackSetResp f b →
    ∃ t, exec i s = .next t ∧ s.onlyFrame f t ∧ (s.frame f).payloadSet (t.frame f) 4 (b.take 60) ∧
      (t.frame f).byte 1 = (s.frame f).byte 1 ∧
      t.result = some (okResult (min b.length 60) [] (decide (60 < b.length)))

/-- `NTC.SET` (R165): at most 61 bytes from offset 3 on, `length` their count; the flags, type and identifier are not
written, and `ENC` in particular is not cleared, which is the spec's own choice (R168, D13), and so are the capacity and
that the string is copied as it is, without a terminator (R159, D6, D7). -/
def Obligations.NtcSet : Prop :=
  ∀ (f : FrameSel) (b : List (BitVec 8)) (s : State), (s.frame f).ok = true →
    ∃ t, exec (.ntcSet f b) s = .next t ∧ s.onlyFrame f t ∧ (s.frame f).payloadSet (t.frame f) 3 (b.take 61) ∧
      (t.frame f).byte 1 = (s.frame f).byte 1 ∧
      t.result = some (okResult (min b.length 61) [] (decide (61 < b.length)))

/-- Encoded Data of 0 to 45 bytes is read back after decoding, and decoding again is a no-op (the properties of R153).
The codec is the spec's own choice (D15; notes/assumptions/15). -/
def Obligations.EncodedDataRoundTrip : Prop :=
  ∀ (f : FrameSel) (b : List (BitVec 8)) (s : State), (s.frame f).ok = true → b.length ≤ 45 →
    ∃ t u v w, exec (.datSetEnc f b) s = .next t ∧ exec (.datDecode f) t = .next u ∧
      u.result = some (okResult b.length [] false) ∧ exec (.datGet f) u = .next v ∧
      v.result = some (okResult b.length b false) ∧ exec (.datDecode f) u = .next w ∧
      w.result = some (okResult b.length [] false) ∧ u.onlyResult w

/-- What is set is read back: raw Data of 0 to 61 bytes as it was given (the property of R151), and a string of any length
L in a Command, Ack or Notice with the effective length `min(L, C)`, terminated (R159). `DAT.GET` and the contract of the
getters are the spec's own choice (D6, D7, D38). -/
def Obligations.SetThenGet : Prop :=
  ∀ (f : FrameSel) (b : List (BitVec 8)) (s : State), (s.frame f).ok = true →
    (b.length ≤ 61 → ∃ t u, exec (.datSetRaw f b) s = .next t ∧ exec (.datGet f) t = .next u ∧
        u.result = some (okResult b.length b false)) ∧
      (∃ t u, exec (.cmdSetParam f b) s = .next t ∧ exec (.cmdGetParam f) t = .next u ∧
        u.result = some (okResult (min b.length 60) (b.take 60 ++ [0]) false)) ∧
      (∃ t u, exec (.ackSetResp f b) s = .next t ∧ exec (.ackGetResp f) t = .next u ∧
        u.result = some (okResult (min b.length 60) (b.take 60 ++ [0]) false)) ∧
      ∃ t u, exec (.ntcSet f b) s = .next t ∧ exec (.ntcGet f) t = .next u ∧
        u.result = some (okResult (min b.length 61) (b.take 61 ++ [0]) false)

/-! ### EXP -/

/-- `EXP.ENC` and `EXP.DEC` (R195, R196) answer the codec's functions and touch no state. Offering the codec without a
frame, and failing on invalid text, are the spec's own choice (D2, D15, D16; notes/assumptions/15). -/
def Obligations.ExpOperations : Prop :=
  ∀ (b : List (BitVec 8)) (s : State),
    (∃ t, exec (.expEnc b) s = .next t ∧ s.onlyResult t ∧
        t.result = some (okResult (min b.length 45) (expEncode (b.take 45)) (decide (45 < b.length)))) ∧
      ∃ t, exec (.expDec b) s = .next t ∧ s.onlyResult t ∧
        t.result = some
          (match expDecode b with
          | none => errorResult .badEncoding 0
          | some d => if 45 < d.length then errorResult .decodedTooLong 0 else okResult d.length d false)

/-- The codec decodes what it encodes (law L1 of R190, R194), for strings of any length; the codec is the spec's own
choice (D15; notes/assumptions/15). -/
def Obligations.CodecRoundTrip : Prop := ∀ p : List (BitVec 8), expDecode (expEncode p) = some p

/-- The encoded text (R191, R193): no CR, LF, comma or colon in it, and at most 61 bytes of it for 45 raw bytes (law L2
of R190); and what decodes has a length that is a multiple of 4 and gives at most three bytes a group (R192). The
codec is the spec's own choice (D15; notes/assumptions/15). -/
def Obligations.CodecText : Prop :=
  (∀ p : List (BitVec 8), 0x0D ∉ expEncode p ∧ 0x0A ∉ expEncode p ∧ 0x2C ∉ expEncode p ∧ 0x3A ∉ expEncode p ∧
      (p.length ≤ 45 → (expEncode p).length ≤ 61)) ∧
    ∀ e d : List (BitVec 8), expDecode e = some d →
      e.length % 4 = 0 ∧ d.length ≤ 3 * (e.length / 4) ∧ 3 * (e.length / 4) ≤ d.length + 2

/-! ### SND -/

/-- `SND.SEQ` (R210): the counter before the increment (the spec's own choice, D20), which wraps from 255 to 0. -/
def Obligations.SndSeq : Prop :=
  ∀ s : State, ∃ t, exec .sndSeq s = .next t ∧ s.onlyResult { t with seq := s.seq } ∧
    t.seq.toNat = (s.seq.toNat + 1) % 256 ∧ t.result = some (okResult s.seq.toNat [] false)

/-- `SND.XMIT` on a frame with a header (R211): the identifier is `SEQ` and stays in the frame, the whole extent goes
out whatever `length` says, and the count T accepted decides the result and is its `val`. That `SEQ` advances first and
stays advanced is the spec's own choice (D20); the header check too (D8). -/
def Obligations.SndXmit : Prop :=
  ∀ (f : FrameSel) (s : State), (s.frame f).ok = true → 3 ≤ (s.frame f).wr.val →
    ∃ t a, exec (.sndXmit f) s = .next t ∧
      s.sentOnce t (((s.frame f).bytes 0 (s.frame f).wr.val).set 2 s.seq) a ∧
      (∀ g, g ≠ f → t.frame g = s.frame g) ∧ t.txf = s.txf ∧ (s.frame f).sameMeta (t.frame f) ∧
      (t.frame f).wr = (s.frame f).wr ∧ (t.frame f).rd = (s.frame f).rd ∧ (t.frame f).byte 2 = s.seq ∧
      (s.frame f).sameBytesOutside (t.frame f) 2 3 ∧
      t.result = some
        (if a = (s.frame f).wr.val then okResult (s.frame f).wr.val [] false else errorResult .sendMismatch a)

/-- `SND.CMD`, `SND.CMDACK`, `SND.ACK`, `SND.NOTICE` (R212, R215 to R218): exactly one frame goes out, byte for byte, and
the effective length is returned, also where T accepted another number of bytes. The order of building and the value
returned are the spec's own choice (D13, D20). `trunc` is set exactly where the string was cut (R29), also
on `SendMismatch`, where R300 and R308 can be read otherwise (notes/assumptions/11). -/
def Obligations.SndOneFrame : Prop :=
  ∀ (op : BitVec 8) (b : List (BitVec 8)) (s : State),
    (∃ t, exec (.sndCmd op b) s = .next t ∧
        s.sendsFrame t ([BitVec.ofNat 8 (1 + min b.length 60), 0x01, s.seq, op] ++ b.take 60) (min b.length 60)
          (decide (60 < b.length))) ∧
      (∃ t, exec (.sndCmdAck op b) s = .next t ∧
        s.sendsFrame t ([BitVec.ofNat 8 (1 + min b.length 60), 0x09, s.seq, op] ++ b.take 60) (min b.length 60)
          (decide (60 < b.length))) ∧
      (∃ t, exec (.sndAck op b) s = .next t ∧
        s.sendsFrame t ([BitVec.ofNat 8 (1 + min b.length 60), 0x02, s.seq, op] ++ b.take 60) (min b.length 60)
          (decide (60 < b.length))) ∧
      ∃ t, exec (.sndNotice b) s = .next t ∧
        s.sendsFrame t ([BitVec.ofNat 8 (min b.length 61), 0x03, s.seq] ++ b.take 61) (min b.length 61)
          (decide (61 < b.length))

/-- `SND.DATA` whatever T answers (R213, R219): the frames handed over are the fragments in order, one attempt each; it
ends with the first that T does not accept whole, with the input bytes carried before it, or with all bytes carried.
The value of a failure is the spec's own choice (D31), the counter's too (D20), and with `encode` the payloads are those
of the codec that the spec chose (D15; notes/assumptions/15). `trunc` is 0 on a failure too, since SND.DATA never truncates
(R308, vector V-SND-15; notes/assumptions/11). -/
def Obligations.SndDataFrames : Prop :=
  ∀ (fragment encode : Bool) (b : List (BitVec 8)) (s : State),
    ∃ t l, exec (.sndData fragment encode b) s = .next t ∧ s.sameAroundSend t ∧ t.f0 = s.f0 ∧ t.f1 = s.f1 ∧
      s.txf.sameMeta t.txf ∧ t.t.sent = s.t.sent ++ l ∧ t.seq = s.seq + BitVec.ofNat 8 l.length ∧
      (∀ j x, l[j]? = some x → x.bytes = fragmentBytes fragment encode s.seq b j) ∧
      (∀ (j : Nat) (x : Sent) (a : Nat), l[j]? = some x → s.t.sendAnswers[j]? = some a → x.accepted = a) ∧
      ((l.length = fragmentCount encode b.length ∧ (∀ x ∈ l, x.accepted = x.bytes.length) ∧
          t.result = some (okResult b.length [] false)) ∨
        ∃ y z, l = y ++ [z] ∧ l.length ≤ fragmentCount encode b.length ∧ (∀ x ∈ y, x.accepted = x.bytes.length) ∧
          z.accepted ≠ z.bytes.length ∧
          t.result = some (errorResult .sendMismatch (dataCapacity encode * y.length)))

/-- The fragmentation property (R214): with T accepting every frame, `ceil(L/K)` frames, every one but the last with
`FRAG` set and `K` input bytes, identifiers consecutive, and the input bytes carried sum to L. A derivation of the
spec; with `encode` the payloads are those of the codec that the spec chose (D15; notes/assumptions/15). -/
def Obligations.Fragmentation : Prop :=
  ∀ (fragment encode : Bool) (b : List (BitVec 8)) (s : State),
    (∀ j, j < fragmentCount encode b.length →
      s.t.sendAnswers[j]? = some (fragmentBytes fragment encode s.seq b j).length) →
    ∃ t, exec (.sndData fragment encode b) s = .next t ∧ t.result = some (okResult b.length [] false) ∧
      t.t.sent = s.t.sent ++ (List.range (fragmentCount encode b.length)).map (fun j =>
        ⟨fragmentBytes fragment encode s.seq b j, (fragmentBytes fragment encode s.seq b j).length⟩) ∧
      (∀ j, j + 1 < fragmentCount encode b.length →
        (fragmentInput encode b j).length = dataCapacity encode ∧
          ∃ y, (fragmentBytes fragment encode s.seq b j)[1]? = some y ∧ y.getLsbD 4 = true) ∧
      ((List.range (fragmentCount encode b.length)).map (fun j => (fragmentInput encode b j).length)).sum = b.length

/-! ### RCV -/

/-- The entry of `RCV.LISTEN` (R242, R246): the frame cleared and its metadata kept, the receiver idle, one tick sample
taken, and the budget read as two's complement. The budget's width and sign are the spec's own choice (D21); `listening`
and `rxFrame` are the model's own registers (notes/assumptions/5). -/
def Obligations.ListenEntry : Prop :=
  ∀ (f : FrameSel) (b : BitVec 32) (s : State),
    ∃ t, exec (.rcvListen f b) s = .next t ∧ (t.frame f).isClear = true ∧ (∀ a, (t.frame f).byte a = 0) ∧
      (s.frame f).sameMeta (t.frame f) ∧ (∀ g, g ≠ f → t.frame g = s.frame g) ∧ t.txf = s.txf ∧ t.seq = s.seq ∧
      t.rxState = .idle ∧ t.rxExtended = false ∧ t.listening = true ∧ t.rxFrame = f ∧ t.t = s.t ∧ t.host = s.host ∧
      t.rst = s.rst ∧ t.cfg = s.cfg ∧ (∀ x r, s.ticks = x :: r → t.rxLast = x ∧ t.ticks = r ∧ t.draws = s.draws) ∧
      (if b.toInt < 0 then t.rxUnbounded = true ∧ t.rxBudget = s.rxBudget
      else t.rxUnbounded = false ∧ (t.rxBudget.toNat : Int) = b.toInt)

/-- The timeout (R244, R245): an iteration whose accounting leaves a finite budget at 0 ends the operation before it
touches the transport, even with bytes waiting. The saturating charge and the order are the spec's own choice (D21). -/
def Obligations.TimeoutEndsListen : Prop :=
  ∀ s : State, s.iterates → s.outOfTime = true →
    ∃ t, step s = .next t ∧ s.failsWith t .budgetExhausted ∧ s.sameAroundReceive t ∧ t.t = s.t ∧
      t.rxBudget.toNat = 0

/-- `Idle` (R247, R248): waits while nothing is pending; else goes on to `RxNode`, consumes no byte, and extends a finite
budget once, saturating at 2^31 - 1. "Once per RCV.LISTEN" is the spec's own choice (D22). -/
def Obligations.IdleAndExtension : Prop :=
  ∀ s : State, s.iterates → s.outOfTime = false → s.rxState = .idle →
    ∃ t, step s = .next t ∧ t.frame s.rxFrame = s.frame s.rxFrame ∧
      (if s.available = [] ∨ s.rxUnbounded = true ∨ s.rxExtended = true then
        s.goesOn t (if s.available = [] then .idle else .rxNode) s.available
      else
        s.sameAroundReceive t ∧ t.listening = true ∧ t.result = s.result ∧ t.rxState = .rxNode ∧
          t.t.inbound = s.available ∧ t.rxExtended = true ∧
          t.rxBudget.toNat = min (s.charged +
            s.sampleRst.2.accountTime.arrive.byteTime.1 * (match s.cfg.profile with | .rawBinary => 77 | .asciiHex => 204))
            2147483647)

/-- `RxNode`, `RxModule`, `RxSignal` (R249 to R251): wait for the digits and the separator, consume them together, store
the value in the metadata, or fail with `MalformedField` after consuming them. What digits there are and when they are
consumed is the spec's own choice (D23, D24). -/
def Obligations.MetadataStates : Prop :=
  ∀ s : State, s.iterates → s.outOfTime = false →
    (s.rxState = .rxNode →
        (s.available.length < 3 → ∃ t, step s = .next t ∧ s.goesOn t .rxNode s.available ∧
          t.frame s.rxFrame = s.frame s.rxFrame) ∧
        ∀ c1 c0 p r, s.available = c1 :: c0 :: p :: r → ∃ t, step s = .next t ∧ t.t.inbound = r ∧
          match hex2 c1 c0 with
          | some v => s.goesOn t .rxModule r ∧ t.frame s.rxFrame = { s.frame s.rxFrame with node := v }
          | none => s.failsWith t .malformedField ∧ s.sameAroundReceive t) ∧
      (s.rxState = .rxModule →
        (s.available.length < 5 → ∃ t, step s = .next t ∧ s.goesOn t .rxModule s.available ∧
          t.frame s.rxFrame = s.frame s.rxFrame) ∧
        ∀ c3 c2 c1 c0 p r, s.available = c3 :: c2 :: c1 :: c0 :: p :: r → ∃ t, step s = .next t ∧ t.t.inbound = r ∧
          match hex4 c3 c2 c1 c0 with
          | some v => s.goesOn t .rxSignal r ∧ t.frame s.rxFrame = { s.frame s.rxFrame with moduleId := v }
          | none => s.failsWith t .malformedField ∧ s.sameAroundReceive t) ∧
      (s.rxState = .rxSignal →
        (s.available.length < 3 → ∃ t, step s = .next t ∧ s.goesOn t .rxSignal s.available ∧
          t.frame s.rxFrame = s.frame s.rxFrame) ∧
        ∀ c1 c0 p r, s.available = c1 :: c0 :: p :: r → ∃ t, step s = .next t ∧ t.t.inbound = r ∧
          match hex2 c1 c0 with
          | some v => s.goesOn t .rxHeader r ∧ t.frame s.rxFrame = { s.frame s.rxFrame with sig := v }
          | none => s.failsWith t .malformedField ∧ s.sameAroundReceive t)

/-- One frame byte (R253, R254, R256), of the header or of the payload, fetched as the wire profile says: waits, fails
with `MalformedField`, or appends it; the third header byte leads to `RxPayload`. One byte an iteration is the spec's
own choice (D24). -/
def Obligations.FrameBytes : Prop :=
  ∀ s : State, s.iterates → s.outOfTime = false → (s.frame s.rxFrame).ok = true → (s.frame s.rxFrame).wr.val < 64 →
    (s.rxState = .rxHeader ∨
      (s.rxState = .rxPayload ∧ 1 ≤ ((s.frame s.rxFrame).byte 0).toNat % 64 ∧
        ((s.frame s.rxFrame).byte 0).toNat % 64 ≤ 61 ∧
        (s.frame s.rxFrame).wr.val < 3 + ((s.frame s.rxFrame).byte 0).toNat % 64)) →
    ∃ t, step s = .next t ∧
      match fetchFrameByte s.cfg.profile (s.frame s.rxFrame).wr.val s.available with
      | none => s.goesOn t s.rxState s.available ∧ t.frame s.rxFrame = s.frame s.rxFrame
      | some (none, r) => s.failsWith t .malformedField ∧ s.sameAroundReceive t ∧ t.t.inbound = r
      | some (some v, r) =>
        s.goesOn t (if s.rxState = .rxHeader ∧ (s.frame s.rxFrame).wr.val = 2 then .rxPayload else s.rxState) r ∧
          (t.frame s.rxFrame).wr.val = (s.frame s.rxFrame).wr.val + 1 ∧
          (t.frame s.rxFrame).rd = (s.frame s.rxFrame).rd ∧
          (t.frame s.rxFrame).byte (s.frame s.rxFrame).wr.val = v ∧
          (s.frame s.rxFrame).sameBytesOutside (t.frame s.rxFrame) (s.frame s.rxFrame).wr.val
            ((s.frame s.rxFrame).wr.val + 1) ∧
          (s.frame s.rxFrame).sameMeta (t.frame s.rxFrame)

/-- The terminator (R252, R256): with the payload collected, two bytes are discarded, whatever they are, and the frame is
complete. Not comparing them is the spec's own choice (D23), and so is that they take an iteration of their own (D24);
that `Done` is a step of its own is the model's (notes/assumptions/4). -/
def Obligations.Terminator : Prop :=
  ∀ s : State, s.iterates → s.outOfTime = false → s.rxState = .rxPayload →
    1 ≤ ((s.frame s.rxFrame).byte 0).toNat % 64 → ((s.frame s.rxFrame).byte 0).toNat % 64 ≤ 61 →
    3 + ((s.frame s.rxFrame).byte 0).toNat % 64 ≤ (s.frame s.rxFrame).wr.val →
    ∃ t, step s = .next t ∧ t.frame s.rxFrame = s.frame s.rxFrame ∧
      (if s.available.length < 2 then s.goesOn t .rxPayload s.available
      else s.goesOn t .done (s.available.drop 2))

/-- The length test (R255): a declared length of 0, or above 61, ends the operation before the transport is asked. -/
def Obligations.LengthTest : Prop :=
  ∀ s : State, s.iterates → s.outOfTime = false → s.rxState = .rxPayload →
    (((s.frame s.rxFrame).byte 0).toNat % 64 = 0 →
        ∃ t, step s = .next t ∧ s.failsWith t .lengthZero ∧ s.sameAroundReceive t ∧ t.t = s.t) ∧
      (61 < ((s.frame s.rxFrame).byte 0).toNat % 64 →
        ∃ t, step s = .next t ∧ s.failsWith t .lengthTooLarge ∧ s.sameAroundReceive t ∧ t.t = s.t)

/-- The completed frame (R257, R258): Data, raw or encoded, Ack, Notice, and a Command whose opcode byte is not
`OPC_EXEC`, are delivered as they are, with the type as `val`; a reserved type fails and the frame is cleared. The
failure is the spec's own choice (D28); that these are instructions is the model's (notes/assumptions/4). -/
def Obligations.CompletedFrames : Prop :=
  ∀ (h : HeaderFields) (enc : Bool) (low : BitVec 2) (s : State),
    (∀ i n, (i = .typeDataRaw h ∧ n = 0) ∨ (i = .typeDataEnc h ∧ n = 0) ∨
          (i = .typeCommand enc h ∧ n = 1 ∧ (s.frame s.rxFrame).byte 3 ≠ s.cfg.opcExec) ∨
          (i = .typeAck enc h ∧ n = 2) ∨ (i = .typeNotice enc h ∧ n = 3) →
        ∃ t, exec i s = .next t ∧ s.sameAroundExit t ∧ t.frame s.rxFrame = s.frame s.rxFrame ∧ t.rxState = .idle ∧
          t.listening = false ∧ t.result = some (okResult n [] false)) ∧
      ∃ t, exec (.typeReserved low enc h) s = .next t ∧ s.sameAroundExit t ∧ s.failsWith t .unknownPacketType

/-- The intercept (R258 to R262): a Command with `OPC_EXEC` is executed by the module with the parameter bytes as
received; on failure the operation ends; without `ACKREQ` no frame goes out; with it exactly one Ack goes out, with the
same opcode and at most 60 bytes of the response. Then the frame is cleared and the receiver is idle again, without a
result and with the budget as it was. The failures are the spec's own choice (D27), the opcode's value is open (D26); the
`val` where the Ack is not accepted whole is the effective length of the response, which R301 records, an exception to
the 0 of R263 by U20 (notes/assumptions/16). `trunc` is 0 in that result, also where the response was cut to 60 bytes: the
model's inference from R308, by which a synthesized Ack is cut silently (notes/assumptions/11). A length of 62 or 63 would
read past offset 63, where there is no byte (R52): the model's fault (notes/assumptions/14), which no run reaches
(StepNeverFaults). -/
def Obligations.Intercept : Prop :=
  ∀ (h : HeaderFields) (enc : Bool) (s : State), (s.frame s.rxFrame).byte 3 = s.cfg.opcExec →
    (61 < h.length.toNat → exec (.typeCommand enc h) s = .fault (.outsideFrame 64)) ∧
    (h.length.toNat ≤ 61 → ∃ t a, exec (.typeCommand enc h) s = .next t ∧ (∀ x r, s.t.execAnswers = x :: r → a = x) ∧
      t.t.executed = s.t.executed ++ [⟨(s.frame s.rxFrame).bytes 4 (h.length.toNat - 1), a⟩] ∧
      (∀ g, g ≠ s.rxFrame → t.frame g = s.frame g) ∧ s.txf.sameMeta t.txf ∧ t.rxBudget = s.rxBudget ∧
      t.rxUnbounded = s.rxUnbounded ∧ t.rxLast = s.rxLast ∧ t.rxExtended = s.rxExtended ∧ t.host = s.host ∧
      t.ticks = s.ticks ∧ t.rst = s.rst ∧ t.cfg = s.cfg ∧ t.t.inbound = s.t.inbound ∧
      t.rxFrame = s.rxFrame ∧ (t.frame s.rxFrame).isClear = true ∧
      (s.frame s.rxFrame).sameMeta (t.frame s.rxFrame) ∧ t.rxState = .idle ∧
      match a with
      | none => s.failsWith t .execFailed ∧ t.t.sent = s.t.sent ∧ t.seq = s.seq ∧ t.txf = s.txf
      | some r =>
        if h.ackReq then
          ∃ n, t.t.sent = s.t.sent ++
                [⟨[BitVec.ofNat 8 (1 + min r.length 60), 0x02, s.seq, s.cfg.opcExec] ++ r.take 60, n⟩] ∧
            t.seq = s.seq + 1 ∧
            (if n = 4 + min r.length 60 then t.listening = s.listening ∧ t.result = s.result
            else
              s.failsWith t .sendMismatch (min r.length 60))
        else t.listening = s.listening ∧ t.result = s.result ∧ t.t.sent = s.t.sent ∧ t.seq = s.seq ∧ t.txf = s.txf)

/-- A frame is received: from a listening, idle receiver with an unbounded budget whose transport holds the inbound wire
text (R88) of a frame, in either profile, `length + 9` steps later the operation has ended with the packet type, the
frame holds exactly the bytes sent and the metadata of the prefix, and the bytes behind the text are still pending
(R241, R248 to R257, R264). The number of steps is the model's (notes/assumptions/4), and so is that T loses none of its
pending bytes (notes/assumptions/9). The framing is the spec's own choice (D23, D24). -/
def Obligations.ReceivesWireText : Prop :=
  ∀ (s : State) (node : BitVec 8) (moduleId : BitVec 16) (sig b0 b1 b2 : BitVec 8) (p rest : List (BitVec 8)),
    s.rst = [] → s.listening = true → s.rxState = .idle → s.rxUnbounded = true →
    (s.frame s.rxFrame).isClear = true → b0.toNat % 64 = p.length → 1 ≤ p.length → p.length ≤ 61 →
    b1.toNat % 8 ≤ 3 → (b1.toNat % 8 = 1 → p.head? ≠ some s.cfg.opcExec) →
    s.t.inbound = wireText s.cfg.profile node moduleId sig ([b0, b1, b2] ++ p) ++ rest →
    ∃ t more, Host.Core.run Sys2Proof.core (p.length + 9) s = .next t ∧
      t.result = some (okResult (b1.toNat % 8) [] false) ∧ t.listening = false ∧ t.rxState = .idle ∧
      (t.frame s.rxFrame).wr.val = 3 + p.length ∧ (t.frame s.rxFrame).rd.val = 0 ∧
      (t.frame s.rxFrame).bytes 0 (3 + p.length) = [b0, b1, b2] ++ p ∧ (t.frame s.rxFrame).node = node ∧
      (t.frame s.rxFrame).moduleId = moduleId ∧ (t.frame s.rxFrame).sig = sig ∧ t.t.inbound = rest ++ more

/-- Silence times out (R265 a): with nothing ever pending, the operation ends in `BudgetExhausted` with the frame cleared
at the first iteration at which the elapsed ticks add up to the budget, whatever the samples are, a clock that rolls
over included. The accounting is the spec's own choice (D21). -/
def Obligations.SilenceTimesOut : Prop :=
  ∀ (s : State) (xs : List (BitVec 32)) (x : BitVec 32) (tr : List (BitVec 32)) (ar : List (List (BitVec 8))),
    s.rst = [] → s.listening = true → s.rxState = .idle → s.rxUnbounded = false →
    s.t.inbound = [] → s.ticks = xs ++ [x] ++ tr → s.t.arrivals = List.replicate xs.length [] ++ ar →
    (xs = [] ∨ elapsedTotal s.rxLast xs < s.rxBudget.toNat) →
    s.rxBudget.toNat ≤ elapsedTotal s.rxLast (xs ++ [x]) →
    ∃ t, Host.Core.run Sys2Proof.core (xs.length + 1) s = .next t ∧ s.failsWith t .budgetExhausted ∧
      t.rxExtended = s.rxExtended ∧ t.t.inbound = [] ∧ t.ticks = tr ∧ t.t.arrivals = ar

end
end

