-- ==== Sys2Proof/Laws/Decode.lean ====
section
/-! SUPPORT. The fields of a command word, read back one by one, and the data-in port. -/

namespace Sys2Proof

/-- A concatenation as a number. -/
theorem toNat_append_eq {m n : Nat} (x : BitVec m) (y : BitVec n) :
    (x ++ y).toNat = x.toNat * 2 ^ n + y.toNat := by
  rw [BitVec.toNat_append, ← Nat.shiftLeft_add_eq_or_of_lt y.isLt, Nat.shiftLeft_eq]

/-- The command word as the number of R89. -/
theorem toNat_commandWord (o : BitVec 8) (f : Bool) (i : BitVec 8) :
    (commandWord o f i).toNat = o.toNat * 65536 + f.toNat * 256 + i.toNat := by
  simp only [commandWord, toNat_append_eq, BitVec.toNat_ofBool]
  simp
  omega

@[simp] theorem opselOf_commandWord (o : BitVec 8) (f : Bool) (i : BitVec 8) :
    opselOf (commandWord o f i) = o := by
  apply BitVec.eq_of_toNat_eq
  have := o.isLt
  have := i.isLt
  have := f.toNat_lt
  simp only [opselOf, BitVec.extractLsb'_toNat, toNat_commandWord, Nat.shiftRight_eq_div_pow]
  omega

@[simp] theorem zerosOf_commandWord (o : BitVec 8) (f : Bool) (i : BitVec 8) :
    zerosOf (commandWord o f i) = 0 := by
  apply BitVec.eq_of_toNat_eq
  have := o.isLt
  have := i.isLt
  have := f.toNat_lt
  simp only [zerosOf, BitVec.extractLsb'_toNat, toNat_commandWord, Nat.shiftRight_eq_div_pow]
  show _ = 0
  omega

@[simp] theorem immOf_commandWord (o : BitVec 8) (f : Bool) (i : BitVec 8) :
    immOf (commandWord o f i) = i := by
  apply BitVec.eq_of_toNat_eq
  have := o.isLt
  have := i.isLt
  have := f.toNat_lt
  simp only [immOf, BitVec.extractLsb'_toNat, toNat_commandWord, Nat.shiftRight_eq_div_pow]
  omega

@[simp] theorem selBitOf_commandWord (o : BitVec 8) (f : Bool) (i : BitVec 8) :
    selBitOf (commandWord o f i) = f := by
  have := o.isLt
  have := i.isLt
  simp only [selBitOf, BitVec.getLsbD, toNat_commandWord, Nat.testBit_eq_decide_div_mod_eq]
  cases f <;> simp <;> omega

@[simp] theorem frameOfBit_bitOfFrame (f : FrameSel) : frameOfBit (bitOfFrame f) = f := by
  cases f <;> rfl

/-- The data-in port carries a string of up to 65535 bytes and gives it back. -/
theorem stringFromPort_stringToPort {s : List (BitVec 8)} (h : s.length ≤ 65535) :
    stringFromPort (stringToPort s) = some s := by
  simp only [stringToPort, lengthPrefix, List.cons_append, List.nil_append, stringFromPort, BitVec.toNat_ofNat]
  rw [if_pos (by omega)]

/-- The header word as a number, field by field (R74). -/
theorem toNat_headerWord (type : BitVec 3) (enc : Bool) (h : HeaderFields) :
    (headerWord type enc h).toNat =
      h.unused0.toNat * 4194304 + h.length.toNat * 65536 + h.unused1.toNat * 16384 + enc.toNat * 8192 +
        h.frag.toNat * 4096 + h.ackReq.toNat * 2048 + type.toNat * 256 + h.id.toNat := by
  simp only [headerWord, toNat_append_eq, BitVec.toNat_ofBool]
  omega

end Sys2Proof
end

