-- ==== Sys2Proof/Laws/Codec.lean ====
section
/-! SUPPORT. The alphabet of the expansion codec, and the bits of a group taken apart and put together again. -/

namespace Sys2Proof.Machine

/-- `index` inverts `alpha` (R193). -/
theorem alphaIndex_alpha : ∀ v : BitVec 6, alphaIndex (alpha v) = some v := by decide

/-- The pad character is not in the alphabet (R193). -/
theorem alpha_ne_padChar : ∀ v : BitVec 6, alpha v ≠ padChar := by decide

theorem octet0_sextets (a b : BitVec 8) : octet0 (sextet0 a) (sextet1 a b) = a := by
  apply BitVec.eq_of_toNat_eq
  simp only [octet0, sextet0, sextet1, toNat_append_eq, BitVec.extractLsb'_toNat, Nat.shiftRight_eq_div_pow]
  omega

theorem octet1_sextets (a b c : BitVec 8) : octet1 (sextet1 a b) (sextet2 b c) = b := by
  apply BitVec.eq_of_toNat_eq
  simp only [octet1, sextet1, sextet2, toNat_append_eq, BitVec.extractLsb'_toNat, Nat.shiftRight_eq_div_pow]
  omega

theorem octet2_sextets (b c : BitVec 8) : octet2 (sextet2 b c) (sextet3 c) = c := by
  apply BitVec.eq_of_toNat_eq
  simp only [octet2, sextet2, sextet3, toNat_append_eq, BitVec.extractLsb'_toNat, Nat.shiftRight_eq_div_pow]
  omega

/-- A group of four characters decodes to what it encodes (R191, R192). -/
theorem decodeGroup_encoded (a b c : BitVec 8) :
    decodeGroup (alpha (sextet0 a)) (alpha (sextet1 a b)) (alpha (sextet2 b c)) (alpha (sextet3 c)) =
      some [a, b, c] := by
  simp [decodeGroup, alphaIndex_alpha, octet0_sextets, octet1_sextets, octet2_sextets]

end Sys2Proof.Machine
end

