-- ==== Sys2Proof/Laws/Memory.lean ====
section
/-! SUPPORT. Frame storage: a read after a write, bytes a write leaves alone, and the canonical form kept by every
memory operation. -/

namespace Sys2Proof.Machine

@[simp] theorem Mem.read_nil (a : Nat) : Mem.read [] a = 0 := rfl

@[simp] theorem Mem.writeAll_nil (m : List Host.Cell) (a : Nat) : Mem.writeAll m a [] = m := rfl

@[simp] theorem Mem.slice_zero (m : List Host.Cell) (a : Nat) : Mem.slice m a 0 = [] := rfl

@[simp] theorem Mem.slice_succ (m : List Host.Cell) (a n : Nat) :
    Mem.slice m a (n + 1) = Mem.read m a :: Mem.slice m (a + 1) n := rfl

/-- Below the first offset of a canonical list nothing is listed. -/
theorem Mem.read_below : ∀ (m : List Host.Cell) (lo a : Nat), Mem.wfFrom lo m = true → a < lo → Mem.read m a = 0
  | [], _, _, _, _ => rfl
  | (k, b) :: r, lo, a, h, ha => by
    simp only [Mem.wfFrom, Bool.and_eq_true, decide_eq_true_eq] at h
    have hk : k ≠ a := by omega
    simp only [Mem.read, hk, if_false]
    exact Mem.read_below r (k + 1) a h.2 (by omega)

/-- A canonical list is canonical from any lower offset. -/
theorem Mem.wfFrom_mono {lo lo' : Nat} {m : List Host.Cell} (h : Mem.wfFrom lo m = true) (hl : lo' ≤ lo) :
    Mem.wfFrom lo' m = true := by
  cases m with
  | nil => rfl
  | cons c r =>
    simp only [Mem.wfFrom, Bool.and_eq_true, decide_eq_true_eq] at h ⊢
    exact ⟨⟨⟨by omega, h.1.1.2⟩, h.1.2⟩, h.2⟩

/-- Reading back the byte just written, in a canonical list. -/
theorem Mem.read_write_same : ∀ (m : List Host.Cell) (lo a : Nat) (v : BitVec 8), Mem.wfFrom lo m = true →
    Mem.read (Mem.write m a v) a = v
  | [], _, a, v, _ => by
    unfold Mem.write
    split <;> simp_all [Mem.read]
  | (k, b) :: r, lo, a, v, h => by
    simp only [Mem.wfFrom, Bool.and_eq_true, decide_eq_true_eq] at h
    have below : k ≥ a → Mem.read r a = 0 := fun hk => Mem.read_below r (k + 1) a h.2 (by omega)
    unfold Mem.write
    split
    · rename_i hlt
      have hk : k ≠ a := by omega
      simp only [Mem.read, hk, if_false]
      exact Mem.read_write_same r (k + 1) a v h.2
    · split
      · split
        · rename_i hv
          rw [below (by omega), hv]
        · simp [Mem.read]
      · split
        · rename_i h1 h2 hv
          have hk : k ≠ a := h2
          simp only [Mem.read, hk, if_false, hv]
          exact below (by omega)
        · simp [Mem.read]

/-- A write leaves every other byte alone, in any list. -/
theorem Mem.read_write_other : ∀ (m : List Host.Cell) (a c : Nat) (v : BitVec 8), c ≠ a →
    Mem.read (Mem.write m a v) c = Mem.read m c
  | [], a, c, v, hc => by
    unfold Mem.write
    split <;> simp [Mem.read, Ne.symm hc]
  | (k, b) :: r, a, c, v, hc => by
    unfold Mem.write
    split
    · simp only [Mem.read]
      rw [Mem.read_write_other r a c v hc]
    · split
      · rename_i hka
        have hk : k ≠ c := by omega
        split <;> simp [Mem.read, hk, Ne.symm hc]
      · split <;> simp [Mem.read, Ne.symm hc]

/-- The canonical form after a write inside the frame. -/
theorem Mem.wfFrom_write : ∀ (m : List Host.Cell) (lo a : Nat) (v : BitVec 8), Mem.wfFrom lo m = true → lo ≤ a →
    a < 64 → Mem.wfFrom lo (Mem.write m a v) = true
  | [], lo, a, v, _, hl, ha => by
    unfold Mem.write
    split
    · rfl
    · simp_all [Mem.wfFrom]
  | (k, b) :: r, lo, a, v, h, hl, ha => by
    have h' := h
    simp only [Mem.wfFrom, Bool.and_eq_true, decide_eq_true_eq] at h
    obtain ⟨⟨⟨h1, h2⟩, h3⟩, h4⟩ := h
    unfold Mem.write
    split
    · simp only [Mem.wfFrom, Bool.and_eq_true, decide_eq_true_eq]
      exact ⟨⟨⟨h1, h2⟩, h3⟩, Mem.wfFrom_write r (k + 1) a v h4 (by omega) ha⟩
    · split
      · rename_i hka
        split
        · exact Mem.wfFrom_mono h4 (by omega)
        · simp only [Mem.wfFrom, Bool.and_eq_true, decide_eq_true_eq]
          exact ⟨⟨⟨hl, ha⟩, by assumption⟩, hka ▸ h4⟩
      · split
        · exact h'
        · simp only [Mem.wfFrom, Bool.and_eq_true, decide_eq_true_eq]
          exact ⟨⟨⟨hl, ha⟩, by assumption⟩, ⟨⟨by omega, h2⟩, h3⟩, h4⟩

theorem Mem.wf_nil : Mem.wf [] = true := rfl

/-- `Mem.write` keeps the canonical form. -/
theorem Mem.wf_write {m : List Host.Cell} {a : Nat} {v : BitVec 8} (h : Mem.wf m = true) (ha : a < 64) :
    Mem.wf (Mem.write m a v) = true := Mem.wfFrom_write m 0 a v h (by omega) ha

/-- `Mem.writeAll` keeps the canonical form. -/
theorem Mem.wf_writeAll : ∀ (s : List (BitVec 8)) {m : List Host.Cell} {a : Nat}, Mem.wf m = true →
    a + s.length ≤ 64 → Mem.wf (Mem.writeAll m a s) = true
  | [], _, _, h, _ => h
  | b :: s, m, a, h, hl => by
    simp only [List.length_cons] at hl
    exact Mem.wf_writeAll s (Mem.wf_write h (by omega)) (by omega)

/-- One byte of a written storage. -/
theorem Mem.read_write {m : List Host.Cell} (h : Mem.wf m = true) (a c : Nat) (v : BitVec 8) :
    Mem.read (Mem.write m a v) c = if c = a then v else Mem.read m c := by
  split
  · rename_i hc
    rw [hc]
    exact Mem.read_write_same m 0 a v h
  · exact Mem.read_write_other m a c v (by assumption)

/-- A string write leaves the bytes before it and behind it alone. -/
theorem Mem.read_writeAll_outside : ∀ (s : List (BitVec 8)) (m : List Host.Cell) (a c : Nat),
    c < a ∨ a + s.length ≤ c → Mem.read (Mem.writeAll m a s) c = Mem.read m c
  | [], _, _, _, _ => rfl
  | b :: s, m, a, c, h => by
    simp only [List.length_cons] at h
    simp only [Mem.writeAll]
    rw [Mem.read_writeAll_outside s (Mem.write m a b) (a + 1) c (by omega)]
    exact Mem.read_write_other m a c b (by omega)

/-- A string write puts byte `i` of the string at offset `a + i`. -/
theorem Mem.read_writeAll_inside : ∀ (s : List (BitVec 8)) (m : List Host.Cell) (a i : Nat), Mem.wf m = true →
    a + s.length ≤ 64 → (hi : i < s.length) → Mem.read (Mem.writeAll m a s) (a + i) = s[i]
  | b :: s, m, a, 0, h, hl, _ => by
    simp only [Mem.writeAll, Nat.add_zero, List.getElem_cons_zero]
    rw [Mem.read_writeAll_outside s (Mem.write m a b) (a + 1) a (by omega)]
    exact Mem.read_write_same m 0 a b h
  | b :: s, m, a, i + 1, h, hl, hi => by
    simp only [List.length_cons] at hl hi
    simp only [Mem.writeAll, List.getElem_cons_succ]
    have := Mem.read_writeAll_inside s (Mem.write m a b) (a + 1) i (Mem.wf_write h (by omega)) (by omega) (by omega)
    rwa [show a + (i + 1) = a + 1 + i by omega]

@[simp] theorem Mem.length_slice (m : List Host.Cell) : ∀ (n a : Nat), (Mem.slice m a n).length = n
  | 0, _ => rfl
  | n + 1, a => by simp [Mem.slice, Mem.length_slice m n (a + 1)]

/-- Byte `i` of a slice. -/
theorem Mem.getElem_slice (m : List Host.Cell) : ∀ (n a i : Nat) (h : i < (Mem.slice m a n).length),
    (Mem.slice m a n)[i] = Mem.read m (a + i)
  | n + 1, a, 0, _ => rfl
  | n + 1, a, i + 1, h => by
    simp only [Mem.slice, List.getElem_cons_succ]
    rw [Mem.getElem_slice m n (a + 1) i, show a + 1 + i = a + (i + 1) by omega]

/-- A slice depends on its bytes alone. -/
theorem Mem.slice_congr {m m' : List Host.Cell} : ∀ (n a : Nat),
    (∀ i, a ≤ i → i < a + n → Mem.read m i = Mem.read m' i) → Mem.slice m a n = Mem.slice m' a n
  | 0, _, _ => rfl
  | n + 1, a, h => by
    simp only [Mem.slice]
    rw [h a (by omega) (by omega), Mem.slice_congr n (a + 1) fun i h1 h2 => h i (by omega) (by omega)]

/-- Reading back a string just written. -/
theorem Mem.slice_writeAll {m : List Host.Cell} {s : List (BitVec 8)} {a : Nat} (h : Mem.wf m = true)
    (hl : a + s.length ≤ 64) : Mem.slice (Mem.writeAll m a s) a s.length = s := by
  apply List.ext_getElem (by simp)
  intro i h1 h2
  rw [Mem.getElem_slice]
  exact Mem.read_writeAll_inside s m a i h hl h2

end Sys2Proof.Machine
end

