-- ==== Sys2Proof/Laws/State.lean ====
section
/-! SUPPORT. The small lemmas of the state record: one for each field of each update, true by unfolding. -/

namespace Sys2Proof.Machine

/-! ### `F[f]` replaced -/

@[simp] theorem State.frame_setFrame (s : State) (f : FrameSel) (x : Frame) : (s.setFrame f x).frame f = x := by
  cases f <;> rfl

theorem State.frame_setFrame_other (s : State) {f g : FrameSel} (x : Frame) (h : g ≠ f) :
    (s.setFrame f x).frame g = s.frame g := by
  cases f <;> cases g <;> first | rfl | exact absurd rfl h

theorem State.frame_setFrame_eq (s : State) (f g : FrameSel) (x : Frame) :
    (s.setFrame f x).frame g = if g = f then x else s.frame g := by
  cases f <;> cases g <;> rfl

@[simp] theorem State.setFrame_setFrame (s : State) (f : FrameSel) (x y : Frame) :
    (s.setFrame f x).setFrame f y = s.setFrame f y := by
  cases f <;> rfl

@[simp] theorem State.setFrame_frame (s : State) (f : FrameSel) : s.setFrame f (s.frame f) = s := by
  cases f <;> rfl

@[simp] theorem State.setFrame_txf (s : State) (f : FrameSel) (x : Frame) : (s.setFrame f x).txf = s.txf := by
  cases f <;> rfl

@[simp] theorem State.setFrame_seq (s : State) (f : FrameSel) (x : Frame) : (s.setFrame f x).seq = s.seq := by
  cases f <;> rfl

@[simp] theorem State.setFrame_rxState (s : State) (f : FrameSel) (x : Frame) : (s.setFrame f x).rxState = s.rxState := by
  cases f <;> rfl

@[simp] theorem State.setFrame_rxBudget (s : State) (f : FrameSel) (x : Frame) : (s.setFrame f x).rxBudget = s.rxBudget := by
  cases f <;> rfl

@[simp] theorem State.setFrame_rxUnbounded (s : State) (f : FrameSel) (x : Frame) : (s.setFrame f x).rxUnbounded = s.rxUnbounded := by
  cases f <;> rfl

@[simp] theorem State.setFrame_rxLast (s : State) (f : FrameSel) (x : Frame) : (s.setFrame f x).rxLast = s.rxLast := by
  cases f <;> rfl

@[simp] theorem State.setFrame_rxExtended (s : State) (f : FrameSel) (x : Frame) : (s.setFrame f x).rxExtended = s.rxExtended := by
  cases f <;> rfl

@[simp] theorem State.setFrame_listening (s : State) (f : FrameSel) (x : Frame) : (s.setFrame f x).listening = s.listening := by
  cases f <;> rfl

@[simp] theorem State.setFrame_rxFrame (s : State) (f : FrameSel) (x : Frame) : (s.setFrame f x).rxFrame = s.rxFrame := by
  cases f <;> rfl

@[simp] theorem State.setFrame_host (s : State) (f : FrameSel) (x : Frame) : (s.setFrame f x).host = s.host := by
  cases f <;> rfl

@[simp] theorem State.setFrame_result (s : State) (f : FrameSel) (x : Frame) : (s.setFrame f x).result = s.result := by
  cases f <;> rfl

@[simp] theorem State.setFrame_ticks (s : State) (f : FrameSel) (x : Frame) : (s.setFrame f x).ticks = s.ticks := by
  cases f <;> rfl

@[simp] theorem State.setFrame_rst (s : State) (f : FrameSel) (x : Frame) : (s.setFrame f x).rst = s.rst := by
  cases f <;> rfl

@[simp] theorem State.setFrame_t (s : State) (f : FrameSel) (x : Frame) : (s.setFrame f x).t = s.t := by
  cases f <;> rfl

@[simp] theorem State.setFrame_draws (s : State) (f : FrameSel) (x : Frame) : (s.setFrame f x).draws = s.draws := by
  cases f <;> rfl

@[simp] theorem State.setFrame_cfg (s : State) (f : FrameSel) (x : Frame) : (s.setFrame f x).cfg = s.cfg := by
  cases f <;> rfl

/-! ### The result port written -/

@[simp] theorem State.answer_f0 (s : State) (v : Nat) (o : List (BitVec 8)) (b : Bool) : (s.answer v o b).f0 = s.f0 := rfl

@[simp] theorem State.answer_f1 (s : State) (v : Nat) (o : List (BitVec 8)) (b : Bool) : (s.answer v o b).f1 = s.f1 := rfl

@[simp] theorem State.answer_txf (s : State) (v : Nat) (o : List (BitVec 8)) (b : Bool) : (s.answer v o b).txf = s.txf := rfl

@[simp] theorem State.answer_seq (s : State) (v : Nat) (o : List (BitVec 8)) (b : Bool) : (s.answer v o b).seq = s.seq := rfl

@[simp] theorem State.answer_rxState (s : State) (v : Nat) (o : List (BitVec 8)) (b : Bool) : (s.answer v o b).rxState = s.rxState := rfl

@[simp] theorem State.answer_rxBudget (s : State) (v : Nat) (o : List (BitVec 8)) (b : Bool) : (s.answer v o b).rxBudget = s.rxBudget := rfl

@[simp] theorem State.answer_rxUnbounded (s : State) (v : Nat) (o : List (BitVec 8)) (b : Bool) : (s.answer v o b).rxUnbounded = s.rxUnbounded := rfl

@[simp] theorem State.answer_rxLast (s : State) (v : Nat) (o : List (BitVec 8)) (b : Bool) : (s.answer v o b).rxLast = s.rxLast := rfl

@[simp] theorem State.answer_rxExtended (s : State) (v : Nat) (o : List (BitVec 8)) (b : Bool) : (s.answer v o b).rxExtended = s.rxExtended := rfl

@[simp] theorem State.answer_listening (s : State) (v : Nat) (o : List (BitVec 8)) (b : Bool) : (s.answer v o b).listening = s.listening := rfl

@[simp] theorem State.answer_rxFrame (s : State) (v : Nat) (o : List (BitVec 8)) (b : Bool) : (s.answer v o b).rxFrame = s.rxFrame := rfl

@[simp] theorem State.answer_host (s : State) (v : Nat) (o : List (BitVec 8)) (b : Bool) : (s.answer v o b).host = s.host := rfl

@[simp] theorem State.answer_ticks (s : State) (v : Nat) (o : List (BitVec 8)) (b : Bool) : (s.answer v o b).ticks = s.ticks := rfl

@[simp] theorem State.answer_rst (s : State) (v : Nat) (o : List (BitVec 8)) (b : Bool) : (s.answer v o b).rst = s.rst := rfl

@[simp] theorem State.answer_t (s : State) (v : Nat) (o : List (BitVec 8)) (b : Bool) : (s.answer v o b).t = s.t := rfl

@[simp] theorem State.answer_draws (s : State) (v : Nat) (o : List (BitVec 8)) (b : Bool) : (s.answer v o b).draws = s.draws := rfl

@[simp] theorem State.answer_cfg (s : State) (v : Nat) (o : List (BitVec 8)) (b : Bool) : (s.answer v o b).cfg = s.cfg := rfl

@[simp] theorem State.answer_frame (s : State) (v : Nat) (o : List (BitVec 8)) (b : Bool) (f : FrameSel) : (s.answer v o b).frame f = s.frame f := by
  cases f <;> rfl

@[simp] theorem State.raise_f0 (s : State) (c : Cause) (v : Nat) (b : Bool) : (s.raise c v b).f0 = s.f0 := rfl

@[simp] theorem State.raise_f1 (s : State) (c : Cause) (v : Nat) (b : Bool) : (s.raise c v b).f1 = s.f1 := rfl

@[simp] theorem State.raise_txf (s : State) (c : Cause) (v : Nat) (b : Bool) : (s.raise c v b).txf = s.txf := rfl

@[simp] theorem State.raise_seq (s : State) (c : Cause) (v : Nat) (b : Bool) : (s.raise c v b).seq = s.seq := rfl

@[simp] theorem State.raise_rxState (s : State) (c : Cause) (v : Nat) (b : Bool) : (s.raise c v b).rxState = s.rxState := rfl

@[simp] theorem State.raise_rxBudget (s : State) (c : Cause) (v : Nat) (b : Bool) : (s.raise c v b).rxBudget = s.rxBudget := rfl

@[simp] theorem State.raise_rxUnbounded (s : State) (c : Cause) (v : Nat) (b : Bool) : (s.raise c v b).rxUnbounded = s.rxUnbounded := rfl

@[simp] theorem State.raise_rxLast (s : State) (c : Cause) (v : Nat) (b : Bool) : (s.raise c v b).rxLast = s.rxLast := rfl

@[simp] theorem State.raise_rxExtended (s : State) (c : Cause) (v : Nat) (b : Bool) : (s.raise c v b).rxExtended = s.rxExtended := rfl

@[simp] theorem State.raise_listening (s : State) (c : Cause) (v : Nat) (b : Bool) : (s.raise c v b).listening = s.listening := rfl

@[simp] theorem State.raise_rxFrame (s : State) (c : Cause) (v : Nat) (b : Bool) : (s.raise c v b).rxFrame = s.rxFrame := rfl

@[simp] theorem State.raise_host (s : State) (c : Cause) (v : Nat) (b : Bool) : (s.raise c v b).host = s.host := rfl

@[simp] theorem State.raise_ticks (s : State) (c : Cause) (v : Nat) (b : Bool) : (s.raise c v b).ticks = s.ticks := rfl

@[simp] theorem State.raise_rst (s : State) (c : Cause) (v : Nat) (b : Bool) : (s.raise c v b).rst = s.rst := rfl

@[simp] theorem State.raise_t (s : State) (c : Cause) (v : Nat) (b : Bool) : (s.raise c v b).t = s.t := rfl

@[simp] theorem State.raise_draws (s : State) (c : Cause) (v : Nat) (b : Bool) : (s.raise c v b).draws = s.draws := rfl

@[simp] theorem State.raise_cfg (s : State) (c : Cause) (v : Nat) (b : Bool) : (s.raise c v b).cfg = s.cfg := rfl

@[simp] theorem State.raise_frame (s : State) (c : Cause) (v : Nat) (b : Bool) (f : FrameSel) :
    (s.raise c v b).frame f = s.frame f := by
  cases f <;> rfl

@[simp] theorem State.answer_result (s : State) (v : Nat) (o : List (BitVec 8)) (b : Bool) :
    (s.answer v o b).result = some (okResult v o b) := rfl

@[simp] theorem State.raise_result (s : State) (c : Cause) (v : Nat) (b : Bool) :
    (s.raise c v b).result = some (errorResult c v b) := rfl

/-! ### The updates of the sender's counter -/

@[simp] theorem State.bumpSeq_f0 (s : State) : s.bumpSeq.f0 = s.f0 := rfl

@[simp] theorem State.bumpSeq_f1 (s : State) : s.bumpSeq.f1 = s.f1 := rfl

@[simp] theorem State.bumpSeq_txf (s : State) : s.bumpSeq.txf = s.txf := rfl

@[simp] theorem State.bumpSeq_rxState (s : State) : s.bumpSeq.rxState = s.rxState := rfl

@[simp] theorem State.bumpSeq_rxBudget (s : State) : s.bumpSeq.rxBudget = s.rxBudget := rfl

@[simp] theorem State.bumpSeq_rxUnbounded (s : State) : s.bumpSeq.rxUnbounded = s.rxUnbounded := rfl

@[simp] theorem State.bumpSeq_rxLast (s : State) : s.bumpSeq.rxLast = s.rxLast := rfl

@[simp] theorem State.bumpSeq_rxExtended (s : State) : s.bumpSeq.rxExtended = s.rxExtended := rfl

@[simp] theorem State.bumpSeq_listening (s : State) : s.bumpSeq.listening = s.listening := rfl

@[simp] theorem State.bumpSeq_rxFrame (s : State) : s.bumpSeq.rxFrame = s.rxFrame := rfl

@[simp] theorem State.bumpSeq_host (s : State) : s.bumpSeq.host = s.host := rfl

@[simp] theorem State.bumpSeq_result (s : State) : s.bumpSeq.result = s.result := rfl

@[simp] theorem State.bumpSeq_ticks (s : State) : s.bumpSeq.ticks = s.ticks := rfl

@[simp] theorem State.bumpSeq_rst (s : State) : s.bumpSeq.rst = s.rst := rfl

@[simp] theorem State.bumpSeq_t (s : State) : s.bumpSeq.t = s.t := rfl

@[simp] theorem State.bumpSeq_draws (s : State) : s.bumpSeq.draws = s.draws := rfl

@[simp] theorem State.bumpSeq_cfg (s : State) : s.bumpSeq.cfg = s.cfg := rfl

@[simp] theorem State.bumpSeq_seq (s : State) : s.bumpSeq.seq = s.seq + 1 := rfl

@[simp] theorem State.bumpSeq_frame (s : State) (f : FrameSel) : s.bumpSeq.frame f = s.frame f := by
  cases f <;> rfl

/-! ### The frame record -/

@[simp] theorem Frame.setByte_wr (x : Frame) (i : Nat) (v : BitVec 8) : (x.setByte i v).wr = x.wr := rfl

@[simp] theorem Frame.store_wr (x : Frame) (a : Nat) (s : List (BitVec 8)) : (x.store a s).wr = x.wr := rfl

@[simp] theorem Frame.mapByte1_wr (x : Frame) (g : BitVec 8 → BitVec 8) : (x.mapByte1 g).wr = x.wr := rfl

@[simp] theorem Frame.updLen_wr (x : Frame) : x.updLen.wr = x.wr := rfl

@[simp] theorem Frame.setByte_rd (x : Frame) (i : Nat) (v : BitVec 8) : (x.setByte i v).rd = x.rd := rfl

@[simp] theorem Frame.store_rd (x : Frame) (a : Nat) (s : List (BitVec 8)) : (x.store a s).rd = x.rd := rfl

@[simp] theorem Frame.mapByte1_rd (x : Frame) (g : BitVec 8 → BitVec 8) : (x.mapByte1 g).rd = x.rd := rfl

@[simp] theorem Frame.updLen_rd (x : Frame) : x.updLen.rd = x.rd := rfl

@[simp] theorem Frame.setByte_node (x : Frame) (i : Nat) (v : BitVec 8) : (x.setByte i v).node = x.node := rfl

@[simp] theorem Frame.store_node (x : Frame) (a : Nat) (s : List (BitVec 8)) : (x.store a s).node = x.node := rfl

@[simp] theorem Frame.mapByte1_node (x : Frame) (g : BitVec 8 → BitVec 8) : (x.mapByte1 g).node = x.node := rfl

@[simp] theorem Frame.updLen_node (x : Frame) : x.updLen.node = x.node := rfl

@[simp] theorem Frame.setByte_moduleId (x : Frame) (i : Nat) (v : BitVec 8) : (x.setByte i v).moduleId = x.moduleId := rfl

@[simp] theorem Frame.store_moduleId (x : Frame) (a : Nat) (s : List (BitVec 8)) : (x.store a s).moduleId = x.moduleId := rfl

@[simp] theorem Frame.mapByte1_moduleId (x : Frame) (g : BitVec 8 → BitVec 8) : (x.mapByte1 g).moduleId = x.moduleId := rfl

@[simp] theorem Frame.updLen_moduleId (x : Frame) : x.updLen.moduleId = x.moduleId := rfl

@[simp] theorem Frame.setByte_sig (x : Frame) (i : Nat) (v : BitVec 8) : (x.setByte i v).sig = x.sig := rfl

@[simp] theorem Frame.store_sig (x : Frame) (a : Nat) (s : List (BitVec 8)) : (x.store a s).sig = x.sig := rfl

@[simp] theorem Frame.mapByte1_sig (x : Frame) (g : BitVec 8 → BitVec 8) : (x.mapByte1 g).sig = x.sig := rfl

@[simp] theorem Frame.updLen_sig (x : Frame) : x.updLen.sig = x.sig := rfl

@[simp] theorem Frame.clear_node (x : Frame) : x.clear.node = x.node := rfl

@[simp] theorem Frame.resetLen_node (x : Frame) (n : Nat) : (x.resetLen n).node = x.node := rfl

@[simp] theorem Frame.setExtent_node (x : Frame) (n : Nat) : (x.setExtent n).node = x.node := rfl

@[simp] theorem Frame.put_node (x : Frame) (b : BitVec 8) : (x.put b).node = x.node := by
  unfold Frame.put
  split <;> rfl

@[simp] theorem Frame.clear_moduleId (x : Frame) : x.clear.moduleId = x.moduleId := rfl

@[simp] theorem Frame.resetLen_moduleId (x : Frame) (n : Nat) : (x.resetLen n).moduleId = x.moduleId := rfl

@[simp] theorem Frame.setExtent_moduleId (x : Frame) (n : Nat) : (x.setExtent n).moduleId = x.moduleId := rfl

@[simp] theorem Frame.put_moduleId (x : Frame) (b : BitVec 8) : (x.put b).moduleId = x.moduleId := by
  unfold Frame.put
  split <;> rfl

@[simp] theorem Frame.clear_sig (x : Frame) : x.clear.sig = x.sig := rfl

@[simp] theorem Frame.resetLen_sig (x : Frame) (n : Nat) : (x.resetLen n).sig = x.sig := rfl

@[simp] theorem Frame.setExtent_sig (x : Frame) (n : Nat) : (x.setExtent n).sig = x.sig := rfl

@[simp] theorem Frame.put_sig (x : Frame) (b : BitVec 8) : (x.put b).sig = x.sig := by
  unfold Frame.put
  split <;> rfl

@[simp] theorem Frame.clear_buf (x : Frame) : x.clear.buf = [] := rfl

@[simp] theorem Frame.clear_wr (x : Frame) : x.clear.wr = 0 := rfl

@[simp] theorem Frame.clear_rd (x : Frame) : x.clear.rd = 0 := rfl

@[simp] theorem Frame.setByte_buf (x : Frame) (i : Nat) (v : BitVec 8) :
    (x.setByte i v).buf = Mem.write x.buf i v := rfl

@[simp] theorem Frame.store_buf (x : Frame) (a : Nat) (s : List (BitVec 8)) :
    (x.store a s).buf = Mem.writeAll x.buf a s := rfl

@[simp] theorem Frame.mapByte1_buf (x : Frame) (g : BitVec 8 → BitVec 8) :
    (x.mapByte1 g).buf = Mem.write x.buf 1 (g (x.byte 1)) := rfl

@[simp] theorem Frame.updLen_buf (x : Frame) :
    x.updLen.buf = Mem.write x.buf 0 (BitVec.ofNat 8 (x.wr.val - 3)) := rfl

@[simp] theorem Frame.resetLen_buf (x : Frame) (n : Nat) : (x.resetLen n).buf = x.buf := rfl

@[simp] theorem Frame.setExtent_buf (x : Frame) (n : Nat) : (x.setExtent n).buf = x.buf := rfl

@[simp] theorem Frame.resetLen_wr (x : Frame) (n : Nat) : (x.resetLen n).wr = cursor n := rfl

@[simp] theorem Frame.resetLen_rd (x : Frame) (n : Nat) : (x.resetLen n).rd = min x.rd (cursor n) := rfl

@[simp] theorem Frame.setExtent_wr (x : Frame) (n : Nat) : (x.setExtent n).wr = cursor (3 + n) := rfl

@[simp] theorem Frame.setExtent_rd (x : Frame) (n : Nat) : (x.setExtent n).rd = min x.rd (cursor (3 + n)) := rfl

/-- A cursor is its value clamped to the capacity. -/
@[simp] theorem cursor_val (n : Nat) : (cursor n).val = min n 64 := rfl

@[simp] theorem cursor_self (c : Fin 65) : cursor c.val = c := by
  apply Fin.ext
  simp only [cursor_val]
  omega

end Sys2Proof.Machine
end

