-- ==== Sys2Proof/Laws/Frame.lean ====
section
/-! SUPPORT. What each operation on one frame does: the bytes it writes and leaves alone, the cursors, and that it keeps
the frame well formed. -/

namespace Sys2Proof.Machine

theorem Frame.ok_iff (x : Frame) : x.ok = true ↔ x.rd ≤ x.wr ∧ Mem.wf x.buf = true := by
  simp [Frame.ok]

theorem Frame.ok_wf {x : Frame} (h : x.ok = true) : Mem.wf x.buf = true := ((Frame.ok_iff x).1 h).2

theorem Frame.ok_cursors {x : Frame} (h : x.ok = true) : x.rd ≤ x.wr := ((Frame.ok_iff x).1 h).1

/-! ### Bytes -/

@[simp] theorem Frame.byte_clear (x : Frame) (a : Nat) : x.clear.byte a = 0 := rfl

@[simp] theorem Frame.byte_resetLen (x : Frame) (n a : Nat) : (x.resetLen n).byte a = x.byte a := rfl

@[simp] theorem Frame.byte_setExtent (x : Frame) (n a : Nat) : (x.setExtent n).byte a = x.byte a := rfl

/-- One stored byte. -/
theorem Frame.byte_setByte {x : Frame} (h : Mem.wf x.buf = true) (i a : Nat) (v : BitVec 8) :
    (x.setByte i v).byte a = if a = i then v else x.byte a := Mem.read_write h i a v

theorem Frame.byte_setByte_other (x : Frame) {i a : Nat} (v : BitVec 8) (h : a ≠ i) :
    (x.setByte i v).byte a = x.byte a := Mem.read_write_other x.buf i a v h

theorem Frame.byte_mapByte1 {x : Frame} (h : Mem.wf x.buf = true) (g : BitVec 8 → BitVec 8) (a : Nat) :
    (x.mapByte1 g).byte a = if a = 1 then g (x.byte 1) else x.byte a := Frame.byte_setByte h 1 a _

theorem Frame.byte_updLen {x : Frame} (h : Mem.wf x.buf = true) (a : Nat) :
    x.updLen.byte a = if a = 0 then BitVec.ofNat 8 (x.wr.val - 3) else x.byte a := Frame.byte_setByte h 0 a _

/-- A stored string, byte by byte. -/
theorem Frame.byte_store_inside {x : Frame} (h : Mem.wf x.buf = true) {a i : Nat} {s : List (BitVec 8)}
    (hl : a + s.length ≤ 64) (hi : i < s.length) : (x.store a s).byte (a + i) = s[i] :=
  Mem.read_writeAll_inside s x.buf a i h hl hi

theorem Frame.byte_store_outside (x : Frame) {a c : Nat} {s : List (BitVec 8)} (h : c < a ∨ a + s.length ≤ c) :
    (x.store a s).byte c = x.byte c := Mem.read_writeAll_outside s x.buf a c h

/-- Reading back a stored string. -/
theorem Frame.bytes_store {x : Frame} (h : Mem.wf x.buf = true) {a : Nat} {s : List (BitVec 8)}
    (hl : a + s.length ≤ 64) : (x.store a s).bytes a s.length = s := Mem.slice_writeAll h hl

/-- A byte string of a frame depends on its bytes alone. -/
theorem Frame.bytes_congr {x y : Frame} {a n : Nat} (h : ∀ i, a ≤ i → i < a + n → x.byte i = y.byte i) :
    x.bytes a n = y.bytes a n := Mem.slice_congr n a h

@[simp] theorem Frame.length_bytes (x : Frame) (a n : Nat) : (x.bytes a n).length = n := Mem.length_slice x.buf n a

theorem Frame.getElem_bytes (x : Frame) (a n i : Nat) (h : i < (x.bytes a n).length) :
    (x.bytes a n)[i] = x.byte (a + i) := Mem.getElem_slice x.buf n a i h

/-- `put` (R101): below the capacity it appends, at the capacity it does nothing. -/
theorem Frame.put_spec (x : Frame) (b : BitVec 8) :
    (x.wr.val < 64 ∧ (x.put b).wr.val = x.wr.val + 1 ∧ (x.put b).rd = x.rd ∧
      (x.put b).buf = Mem.write x.buf x.wr.val b) ∨ (x.wr.val = 64 ∧ x.put b = x) := by
  unfold Frame.put
  split
  · refine .inl ⟨by assumption, ?_, rfl, rfl⟩
    simp only [cursor_val]
    omega
  · exact .inr ⟨by omega, rfl⟩

/-! ### Canonical storage and cursors are kept -/

theorem Frame.wf_setByte {x : Frame} (h : Mem.wf x.buf = true) {i : Nat} (hi : i < 64) (v : BitVec 8) :
    Mem.wf (x.setByte i v).buf = true := Mem.wf_write h hi

theorem Frame.wf_store {x : Frame} (h : Mem.wf x.buf = true) {a : Nat} {s : List (BitVec 8)}
    (hl : a + s.length ≤ 64) : Mem.wf (x.store a s).buf = true := Mem.wf_writeAll s h hl

theorem Frame.ok_reset : Frame.reset.ok = true := by decide

theorem Frame.ok_clear (x : Frame) : x.clear.ok = true := by
  simp [Frame.ok_iff, Mem.wf_nil]

theorem Frame.ok_setByte {x : Frame} (h : x.ok = true) {i : Nat} (hi : i < 64) (v : BitVec 8) :
    (x.setByte i v).ok = true :=
  (Frame.ok_iff (x.setByte i v)).2 ⟨(Frame.ok_iff x).1 h |>.1, Frame.wf_setByte (Frame.ok_wf h) hi v⟩

theorem Frame.ok_store {x : Frame} (h : x.ok = true) {a : Nat} {s : List (BitVec 8)} (hl : a + s.length ≤ 64) :
    (x.store a s).ok = true :=
  (Frame.ok_iff (x.store a s)).2 ⟨(Frame.ok_iff x).1 h |>.1, Frame.wf_store (Frame.ok_wf h) hl⟩

theorem Frame.ok_mapByte1 {x : Frame} (h : x.ok = true) (g : BitVec 8 → BitVec 8) : (x.mapByte1 g).ok = true :=
  Frame.ok_setByte h (by omega) _

theorem Frame.ok_updLen {x : Frame} (h : x.ok = true) : x.updLen.ok = true := Frame.ok_setByte h (by omega) _

/-- The clamp of R103 keeps the read cursor at or below the write cursor, whatever they were. -/
theorem Frame.ok_resetLen {x : Frame} (h : x.ok = true) (n : Nat) : (x.resetLen n).ok = true :=
  (Frame.ok_iff (x.resetLen n)).2 ⟨min_le_right _ _, (Frame.ok_iff x).1 h |>.2⟩

theorem Frame.ok_setExtent {x : Frame} (h : x.ok = true) (n : Nat) : (x.setExtent n).ok = true :=
  Frame.ok_resetLen h (3 + n)

theorem Frame.ok_put {x : Frame} (h : x.ok = true) (b : BitVec 8) : (x.put b).ok = true := by
  obtain ⟨h1, h2, h3, h4⟩ | ⟨-, h2⟩ := Frame.put_spec x b
  · have hc := Frame.ok_cursors h
    refine (Frame.ok_iff _).2 ⟨?_, ?_⟩
    · rw [h3, Fin.le_def]
      rw [Fin.le_def] at hc
      omega
    · rw [h4]
      exact Mem.wf_write (Frame.ok_wf h) h1
  · rw [h2]
    exact h

theorem rawCount_le (n : Nat) : rawCount n ≤ 61 := Nat.min_le_right _ _

theorem encCount_le (n : Nat) : encCount n ≤ 45 := Nat.min_le_right _ _

theorem paramCount_le (n : Nat) : paramCount n ≤ 60 := Nat.min_le_right _ _

theorem noticeCount_le (n : Nat) : noticeCount n ≤ 61 := Nat.min_le_right _ _

/-- Size of the encoded text (R191, R194). -/
theorem length_expEncode : ∀ p : List (BitVec 8), (expEncode p).length = 4 * ((p.length + 2) / 3)
  | [] => rfl
  | [_] => by simp [expEncode]
  | [_, _] => by simp [expEncode]
  | a :: b :: c :: r => by
    simp only [expEncode, List.length_cons, length_expEncode r]
    omega

theorem length_expEncode_take (s : List (BitVec 8)) : (expEncode (s.take (encCount s.length))).length ≤ 60 := by
  rw [length_expEncode, List.length_take]
  have := encCount_le s.length
  omega

theorem Frame.ok_setRaw {x : Frame} (h : x.ok = true) (s : List (BitVec 8)) : (x.setRaw s).ok = true := by
  have hc := rawCount_le s.length
  refine Frame.ok_updLen (Frame.ok_mapByte1 (Frame.ok_store (Frame.ok_setExtent h _) ?_) _)
  simp only [List.length_take]
  omega

theorem Frame.ok_setEncoded {x : Frame} (h : x.ok = true) (s : List (BitVec 8)) : (x.setEncoded s).ok = true := by
  have hc := length_expEncode_take s
  exact Frame.ok_updLen (Frame.ok_mapByte1 (Frame.ok_store (Frame.ok_setExtent h _) (by omega)) _)

theorem Frame.ok_setDecoded {x : Frame} (h : x.ok = true) {d : List (BitVec 8)} (hd : d.length ≤ 45) :
    (x.setDecoded d).ok = true :=
  Frame.ok_updLen (Frame.ok_mapByte1 (Frame.ok_resetLen (Frame.ok_store h (by omega)) _) _)

theorem Frame.ok_setOpcode {x : Frame} (h : x.ok = true) (op : BitVec 8) : (x.setOpcode op).ok = true := by
  refine Frame.ok_updLen (Frame.ok_setByte ?_ (by omega) op)
  split
  · exact Frame.ok_resetLen h 4
  · exact h

theorem Frame.ok_setString {x : Frame} (h : x.ok = true) (s : List (BitVec 8)) : (x.setString s).ok = true := by
  have hc := paramCount_le s.length
  refine Frame.ok_updLen (Frame.ok_store (Frame.ok_setExtent h _) ?_)
  simp only [List.length_take]
  omega

theorem Frame.ok_setNotice {x : Frame} (h : x.ok = true) (s : List (BitVec 8)) : (x.setNotice s).ok = true := by
  have hc := noticeCount_le s.length
  refine Frame.ok_updLen (Frame.ok_store (Frame.ok_setExtent h _) ?_)
  simp only [List.length_take]
  omega

theorem Frame.ok_build (x : Frame) (type : BitVec 3) : (x.build type).ok = true :=
  Frame.ok_setByte (Frame.ok_resetLen (Frame.ok_clear x) 3) (by omega) _

/-! ### The extent and the metadata after the setters -/

theorem Frame.wr_build (x : Frame) (type : BitVec 3) : (x.build type).wr.val = 3 := rfl

theorem Frame.wr_setRaw (x : Frame) (s : List (BitVec 8)) : (x.setRaw s).wr.val = 3 + rawCount s.length := by
  have := rawCount_le s.length
  simp only [Frame.setRaw, Frame.updLen_wr, Frame.mapByte1_wr, Frame.store_wr, Frame.setExtent_wr, cursor_val]
  omega

theorem Frame.wr_setEncoded (x : Frame) (s : List (BitVec 8)) :
    (x.setEncoded s).wr.val = 3 + (expEncode (s.take (encCount s.length))).length := by
  have := length_expEncode_take s
  simp only [Frame.setEncoded, Frame.updLen_wr, Frame.mapByte1_wr, Frame.store_wr, Frame.setExtent_wr, cursor_val]
  omega

theorem Frame.wr_setOpcode (x : Frame) (op : BitVec 8) : (x.setOpcode op).wr.val = max x.wr.val 4 := by
  simp only [Frame.setOpcode, Frame.updLen_wr, Frame.setByte_wr]
  split
  · simp only [Frame.resetLen_wr, cursor_val]
    omega
  · omega

theorem Frame.wr_setString (x : Frame) (s : List (BitVec 8)) : (x.setString s).wr.val = 4 + paramCount s.length := by
  have := paramCount_le s.length
  simp only [Frame.setString, Frame.updLen_wr, Frame.store_wr, Frame.setExtent_wr, cursor_val]
  omega

theorem Frame.wr_setNotice (x : Frame) (s : List (BitVec 8)) : (x.setNotice s).wr.val = 3 + noticeCount s.length := by
  have := noticeCount_le s.length
  simp only [Frame.setNotice, Frame.updLen_wr, Frame.store_wr, Frame.setExtent_wr, cursor_val]
  omega

theorem Frame.sameMeta_clear (x : Frame) : x.sameMeta x.clear := ⟨rfl, rfl, rfl⟩

theorem Frame.sameMeta_put (x : Frame) (b : BitVec 8) : x.sameMeta (x.put b) := by simp [Frame.sameMeta]

theorem Frame.sameMeta_setRaw (x : Frame) (s : List (BitVec 8)) : x.sameMeta (x.setRaw s) := ⟨rfl, rfl, rfl⟩

theorem Frame.sameMeta_setEncoded (x : Frame) (s : List (BitVec 8)) : x.sameMeta (x.setEncoded s) := ⟨rfl, rfl, rfl⟩

theorem Frame.sameMeta_setDecoded (x : Frame) (d : List (BitVec 8)) : x.sameMeta (x.setDecoded d) := ⟨rfl, rfl, rfl⟩

theorem Frame.sameMeta_setOpcode (x : Frame) (op : BitVec 8) : x.sameMeta (x.setOpcode op) := by
  unfold Frame.setOpcode
  split <;> exact ⟨rfl, rfl, rfl⟩

theorem Frame.sameMeta_setString (x : Frame) (s : List (BitVec 8)) : x.sameMeta (x.setString s) := ⟨rfl, rfl, rfl⟩

theorem Frame.sameMeta_setNotice (x : Frame) (s : List (BitVec 8)) : x.sameMeta (x.setNotice s) := ⟨rfl, rfl, rfl⟩

theorem Frame.sameMeta_build (x : Frame) (type : BitVec 3) : x.sameMeta (x.build type) := ⟨rfl, rfl, rfl⟩

end Sys2Proof.Machine
end

