-- ==== Sys2Proof/Laws/Ops.lean ====
section
/-! SUPPORT. One lemma for each shared operation: everything it can do to the state. -/

namespace Sys2Proof.Machine

/-! ### Errors and their preconditions -/

/-- `need_header` (R121): the frame has its header and the operation goes on, or it has not and only the result
changes. -/
theorem State.needHeader_cases (s : State) (f : FrameSel) (k : Frame → State) :
    (3 ≤ (s.frame f).wr.val ∧ s.needHeader f k = k (s.frame f)) ∨
      ((s.frame f).wr.val < 3 ∧ s.needHeader f k = s.raise .headerMissing) := by
  by_cases h : 3 ≤ (s.frame f).wr.val
  · exact .inl ⟨h, by simp [State.needHeader, Frame.hasHeader, h]⟩
  · exact .inr ⟨by omega, by simp [State.needHeader, Frame.hasHeader, h]⟩

theorem State.needHeader_of_header {s : State} {f : FrameSel} (h : 3 ≤ (s.frame f).wr.val) (k : Frame → State) :
    s.needHeader f k = k (s.frame f) := by simp [State.needHeader, Frame.hasHeader, h]

theorem State.needHeader_missing {s : State} {f : FrameSel} (h : (s.frame f).wr.val < 3) (k : Frame → State) :
    s.needHeader f k = s.raise .headerMissing := by
  have : ¬ 3 ≤ (s.frame f).wr.val := by omega
  simp [State.needHeader, Frame.hasHeader, this]

/-- `payload_window` (R150): the payload lies inside the extent and the operation goes on, or only the result
changes. -/
theorem State.payloadWindow_cases (s : State) (f : FrameSel) (k : Frame → Nat → State) :
    (3 + (s.frame f).lengthField ≤ (s.frame f).wr.val ∧
        s.payloadWindow f k = k (s.frame f) (s.frame f).lengthField) ∨
      ((s.frame f).wr.val < 3 ∧ s.payloadWindow f k = s.raise .headerMissing) ∨
      (3 ≤ (s.frame f).wr.val ∧ (s.frame f).wr.val < 3 + (s.frame f).lengthField ∧
        s.payloadWindow f k = s.raise .lengthMismatch) := by
  unfold State.payloadWindow
  obtain ⟨h, e⟩ | ⟨h, e⟩ := s.needHeader_cases f
    (fun x => if x.wr.val < 3 + x.lengthField then s.raise .lengthMismatch else k x x.lengthField)
  · by_cases hw : (s.frame f).wr.val < 3 + (s.frame f).lengthField
    · exact .inr (.inr ⟨h, hw, by rw [e, if_pos hw]⟩)
    · exact .inl ⟨by omega, by rw [e, if_neg hw]⟩
  · exact .inr (.inl ⟨h, e⟩)

theorem State.payloadWindow_inside {s : State} {f : FrameSel}
    (h : 3 + (s.frame f).lengthField ≤ (s.frame f).wr.val) (k : Frame → Nat → State) :
    s.payloadWindow f k = k (s.frame f) (s.frame f).lengthField := by
  obtain ⟨_, e⟩ | ⟨h', _⟩ | ⟨_, h', _⟩ := s.payloadWindow_cases f k
  · exact e
  · omega
  · omega

theorem State.onlyResult_raise (s : State) (c : Cause) (v : Nat) (b : Bool) : s.onlyResult (s.raise c v b) :=
  ⟨rfl, rfl, rfl, ⟨rfl, rfl, rfl, rfl, rfl, rfl, rfl, rfl⟩, ⟨rfl, rfl, rfl, rfl, rfl, rfl⟩⟩

theorem State.onlyResult_answer (s : State) (v : Nat) (o : List (BitVec 8)) (b : Bool) :
    s.onlyResult (s.answer v o b) :=
  ⟨rfl, rfl, rfl, ⟨rfl, rfl, rfl, rfl, rfl, rfl, rfl, rfl⟩, ⟨rfl, rfl, rfl, rfl, rfl, rfl⟩⟩

theorem State.onlyFrame_setFrame_answer (s : State) (f : FrameSel) (x : Frame) (v : Nat) (o : List (BitVec 8))
    (b : Bool) : s.onlyFrame f ((s.setFrame f x).answer v o b) := by
  refine ⟨fun g hg => ?_, ?_, ?_, ?_⟩
  · rw [State.answer_frame, State.frame_setFrame_other s x hg]
  · simp
  · simp [State.sameRegisters]
  · simp [State.sameEnvironment]

theorem State.onlyFrame_of_onlyResult {s t : State} (f : FrameSel) (h : s.onlyResult t) : s.onlyFrame f t :=
  ⟨fun g _ => by cases g <;> simp [State.frame, h.1, h.2.1], h.2.2⟩

/-! ### Inputs: what a draw changes -/

theorem State.now_spec (s : State) : ∃ ticks draws, s.now.2 = { s with ticks := ticks, draws := draws } := by
  unfold State.now
  split
  · exact ⟨_, s.draws, rfl⟩
  · exact ⟨s.ticks, _, rfl⟩

theorem State.arrive_spec (s : State) : ∃ a arrivals draws, s.arrive =
    { s with t := { s.t with inbound := s.t.inbound ++ a, arrivals := arrivals }, draws := draws } := by
  unfold State.arrive
  split
  · exact ⟨_, _, s.draws, rfl⟩
  · exact ⟨_, s.t.arrivals, _, rfl⟩

theorem State.byteTime_spec (s : State) : ∃ byteTimes draws, s.byteTime.2 =
    { s with t := { s.t with byteTimes := byteTimes }, draws := draws } := by
  unfold State.byteTime
  split
  · exact ⟨_, s.draws, rfl⟩
  · exact ⟨s.t.byteTimes, _, rfl⟩

theorem State.sendAnswer_spec (s : State) : ∃ answers draws, s.sendAnswer.2 =
    { s with t := { s.t with sendAnswers := answers }, draws := draws } := by
  unfold State.sendAnswer
  split
  · exact ⟨_, s.draws, rfl⟩
  · exact ⟨s.t.sendAnswers, _, rfl⟩

theorem State.execAnswer_spec (s : State) : ∃ answers draws, s.execAnswer.2 =
    { s with t := { s.t with execAnswers := answers }, draws := draws } := by
  unfold State.execAnswer
  split
  · exact ⟨_, s.draws, rfl⟩
  · exact ⟨s.t.execAnswers, _, rfl⟩

/-- `T.send` (R60): one string more is recorded, with its answer. -/
theorem State.send_spec (s : State) (b : List (BitVec 8)) : ∃ answers draws, (s.send b).2 =
    { s with
      t := { s.t with sendAnswers := answers, sent := s.t.sent ++ [⟨b, (s.send b).1⟩] }, draws := draws } := by
  obtain ⟨answers, draws, h⟩ := s.sendAnswer_spec
  exact ⟨answers, draws, by simp only [State.send, h]⟩

/-- `T.exec` (R60): one command more is recorded, with its answer. -/
theorem State.execModule_spec (s : State) (c : List (BitVec 8)) : ∃ answers draws, (s.execModule c).2 =
    { s with
      t := { s.t with execAnswers := answers, executed := s.t.executed ++ [⟨c, (s.execModule c).1⟩] },
      draws := draws } := by
  obtain ⟨answers, draws, h⟩ := s.execAnswer_spec
  exact ⟨answers, draws, by simp only [State.execModule, h]⟩

/-! ### The sender -/

/-- `xmit(TXF)` (R211): `SEQ` advances, `TXF` holds the frame with the old `SEQ` as identifier, and its content is the
one string handed to T. -/
theorem State.xmitTxf_spec (s : State) (x : Frame) : ∃ answers draws, (s.xmitTxf x).2 =
    { s with
      seq := s.seq + 1
      txf := s.stamped x
      t := { s.t with
        sendAnswers := answers, sent := s.t.sent ++ [⟨(s.stamped x).content, (s.xmitTxf x).1⟩] }
      draws := draws } := by
  obtain ⟨answers, draws, h⟩ := State.send_spec { s.bumpSeq with txf := s.stamped x } (s.stamped x).content
  exact ⟨answers, draws, h⟩

/-- `xmit(F[f])` (R211). -/
theorem State.xmitFrame_spec (s : State) (f : FrameSel) : ∃ answers draws, (s.xmitFrame f).2 =
    { s.setFrame f (s.stamped (s.frame f)) with
      seq := s.seq + 1
      t := { s.t with
        sendAnswers := answers
        sent := s.t.sent ++ [⟨(s.stamped (s.frame f)).content, (s.xmitFrame f).1⟩] }
      draws := draws } := by
  obtain ⟨answers, draws, h⟩ := State.send_spec ((s.bumpSeq).setFrame f (s.stamped (s.frame f)))
    (s.stamped (s.frame f)).content
  refine ⟨answers, draws, ?_⟩
  unfold State.xmitFrame
  rw [h]
  cases f <;> rfl

/-- The end of a composite send (R215 to R218): both cases leave what `xmit` left, and a result. -/
theorem State.sendBuilt_cases (s : State) (x : Frame) (v : Nat) (b : Bool) :
    ((s.xmitTxf x).1 = x.wr.val ∧ s.sendBuilt x v b = (s.xmitTxf x).2.answer v [] b) ∨
      ((s.xmitTxf x).1 ≠ x.wr.val ∧ s.sendBuilt x v b =
        (s.xmitTxf x).2.raise .sendMismatch v b) := by
  by_cases h : (s.xmitTxf x).1 = x.wr.val
  · exact .inl ⟨h, by simp [State.sendBuilt, h]⟩
  · exact .inr ⟨h, by simp [State.sendBuilt, h]⟩

/-- The answer of T comes from its script while it lasts. -/
theorem State.send_scripted (s : State) (b : List (BitVec 8)) {a : Nat} {r : List Nat}
    (h : s.t.sendAnswers = a :: r) : (s.send b).1 = a := by
  simp [State.send, State.sendAnswer, h]

/-! ### Fetching and the reset input -/

/-- What `fetch` finds (R63, R89, R257). -/
theorem State.fetch_cases (s : State) :
    (s.listening = true ∧ s.rxState = .done ∧ s.fetch = some (.header (s.frame s.rxFrame).headerWord, s)) ∨
      (s.listening = true ∧ s.rxState ≠ .done ∧ s.fetch = none) ∨
      (s.listening = false ∧ s.host = [] ∧ s.fetch = none) ∨
      (∃ t r, s.listening = false ∧ s.host = t :: r ∧ s.fetch = some (.command t, { s with host := r })) := by
  cases hl : s.listening
  · cases hh : s.host with
    | nil => exact .inr (.inr (.inl ⟨rfl, rfl, by simp [State.fetch, hl, hh]⟩))
    | cons t r => exact .inr (.inr (.inr ⟨t, r, rfl, rfl, by simp [State.fetch, hl, hh]⟩))
  · by_cases hd : s.rxState = .done
    · exact .inl ⟨rfl, hd, by simp [State.fetch, hl, hd]⟩
    · exact .inr (.inl ⟨rfl, hd, by simp [State.fetch, hl, hd]⟩)

theorem State.sampleRst_spec (s : State) : ∃ rst, s.sampleRst.2 = { s with rst := rst } := by
  unfold State.sampleRst
  split
  · exact ⟨_, rfl⟩
  · exact ⟨s.rst, rfl⟩

/-- What runs while the reset input is released: an accepted or rejected instruction, or an iteration or a wait. -/
theorem State.run_cases (s : State) :
    (∃ w u i, s.fetch = some (w, u) ∧ decode w = .ok i ∧ s.run = exec i u) ∨
      (∃ w u r, s.fetch = some (w, u) ∧ decode w = .error r ∧ s.run = .refused (.notAccepted r)) ∨
      (s.fetch = none ∧ s.run = .next s.idleOrIterate) := by
  cases hf : s.fetch with
  | none => exact .inr (.inr ⟨rfl, by simp [State.run, hf]⟩)
  | some p =>
    obtain ⟨w, u⟩ := p
    cases hd : decode w with
    | ok i => exact .inl ⟨w, u, i, rfl, hd, by simp [State.run, hf, hd]⟩
    | error r => exact .inr (.inl ⟨w, u, r, rfl, hd, by simp [State.run, hf, hd]⟩)

/-- A step, said once: it runs, it is a reset, or a reset strikes what it runs. -/
theorem step_cases (s : State) :
    (s.sampleRst.1 = .released ∧ step s = s.sampleRst.2.run) ∨
      (s.sampleRst.1 = .asserted ∧ step s = .next s.sampleRst.2.resetPulse) ∨
      (∃ k, s.sampleRst.1 = .during k ∧ step s = s.sampleRst.2.abandon k s.sampleRst.2.run) := by
  cases hr : s.sampleRst.1 with
  | released => exact .inl ⟨rfl, by simp [step, hr]⟩
  | asserted => exact .inr (.inl ⟨rfl, by simp [step, hr]⟩)
  | during k => exact .inr (.inr ⟨k, rfl, by simp [step, hr]⟩)

/-- What a reset inside a step answers: the cut where the step would have gone on, the same stop otherwise. -/
theorem State.abandon_next {s t : State} {k : Nat} {o : Host.Outcome State Fault Refusal}
    (h : s.abandon k o = .next t) : ∃ u, o = .next u ∧ t = s.cutShort k u := by
  cases o with
  | next u => exact ⟨u, rfl, by simpa [State.abandon] using h.symm⟩
  | fault x => cases h
  | refused r => cases h

end Sys2Proof.Machine
end

