-- ==== Sys2Proof/Laws/Rcv.lean ====
section
/-! SUPPORT. What one iteration of the receiver can do, state by state, and its exits. -/

namespace Sys2Proof.Machine

/-! ### The updates of the receiver, field by field -/

@[simp] theorem State.goTo_f0 (s : State) (st : RxState) : (s.goTo st).f0 = s.f0 := rfl

@[simp] theorem State.goTo_f1 (s : State) (st : RxState) : (s.goTo st).f1 = s.f1 := rfl

@[simp] theorem State.goTo_txf (s : State) (st : RxState) : (s.goTo st).txf = s.txf := rfl

@[simp] theorem State.goTo_seq (s : State) (st : RxState) : (s.goTo st).seq = s.seq := rfl

@[simp] theorem State.goTo_rxBudget (s : State) (st : RxState) : (s.goTo st).rxBudget = s.rxBudget := rfl

@[simp] theorem State.goTo_rxUnbounded (s : State) (st : RxState) : (s.goTo st).rxUnbounded = s.rxUnbounded := rfl

@[simp] theorem State.goTo_rxLast (s : State) (st : RxState) : (s.goTo st).rxLast = s.rxLast := rfl

@[simp] theorem State.goTo_rxExtended (s : State) (st : RxState) : (s.goTo st).rxExtended = s.rxExtended := rfl

@[simp] theorem State.goTo_listening (s : State) (st : RxState) : (s.goTo st).listening = s.listening := rfl

@[simp] theorem State.goTo_rxFrame (s : State) (st : RxState) : (s.goTo st).rxFrame = s.rxFrame := rfl

@[simp] theorem State.goTo_host (s : State) (st : RxState) : (s.goTo st).host = s.host := rfl

@[simp] theorem State.goTo_result (s : State) (st : RxState) : (s.goTo st).result = s.result := rfl

@[simp] theorem State.goTo_ticks (s : State) (st : RxState) : (s.goTo st).ticks = s.ticks := rfl

@[simp] theorem State.goTo_rst (s : State) (st : RxState) : (s.goTo st).rst = s.rst := rfl

@[simp] theorem State.goTo_t (s : State) (st : RxState) : (s.goTo st).t = s.t := rfl

@[simp] theorem State.goTo_draws (s : State) (st : RxState) : (s.goTo st).draws = s.draws := rfl

@[simp] theorem State.goTo_cfg (s : State) (st : RxState) : (s.goTo st).cfg = s.cfg := rfl

@[simp] theorem State.goTo_rxState (s : State) (st : RxState) : (s.goTo st).rxState = st := rfl

@[simp] theorem State.goTo_frame (s : State) (st : RxState) (g : FrameSel) : (s.goTo st).frame g = s.frame g := by
  cases g <;> rfl

@[simp] theorem State.close_f0 (s : State) : (s.close).f0 = s.f0 := rfl

@[simp] theorem State.close_f1 (s : State) : (s.close).f1 = s.f1 := rfl

@[simp] theorem State.close_txf (s : State) : (s.close).txf = s.txf := rfl

@[simp] theorem State.close_seq (s : State) : (s.close).seq = s.seq := rfl

@[simp] theorem State.close_rxState (s : State) : (s.close).rxState = s.rxState := rfl

@[simp] theorem State.close_rxBudget (s : State) : (s.close).rxBudget = s.rxBudget := rfl

@[simp] theorem State.close_rxUnbounded (s : State) : (s.close).rxUnbounded = s.rxUnbounded := rfl

@[simp] theorem State.close_rxLast (s : State) : (s.close).rxLast = s.rxLast := rfl

@[simp] theorem State.close_rxExtended (s : State) : (s.close).rxExtended = s.rxExtended := rfl

@[simp] theorem State.close_rxFrame (s : State) : (s.close).rxFrame = s.rxFrame := rfl

@[simp] theorem State.close_host (s : State) : (s.close).host = s.host := rfl

@[simp] theorem State.close_result (s : State) : (s.close).result = s.result := rfl

@[simp] theorem State.close_ticks (s : State) : (s.close).ticks = s.ticks := rfl

@[simp] theorem State.close_rst (s : State) : (s.close).rst = s.rst := rfl

@[simp] theorem State.close_t (s : State) : (s.close).t = s.t := rfl

@[simp] theorem State.close_draws (s : State) : (s.close).draws = s.draws := rfl

@[simp] theorem State.close_cfg (s : State) : (s.close).cfg = s.cfg := rfl

@[simp] theorem State.close_listening (s : State) : (s.close).listening = false := rfl

@[simp] theorem State.close_frame (s : State) (g : FrameSel) : (s.close).frame g = s.frame g := by
  cases g <;> rfl

@[simp] theorem State.leave_f0 (s : State) (r : List (BitVec 8)) : (s.leave r).f0 = s.f0 := rfl

@[simp] theorem State.leave_f1 (s : State) (r : List (BitVec 8)) : (s.leave r).f1 = s.f1 := rfl

@[simp] theorem State.leave_txf (s : State) (r : List (BitVec 8)) : (s.leave r).txf = s.txf := rfl

@[simp] theorem State.leave_seq (s : State) (r : List (BitVec 8)) : (s.leave r).seq = s.seq := rfl

@[simp] theorem State.leave_rxState (s : State) (r : List (BitVec 8)) : (s.leave r).rxState = s.rxState := rfl

@[simp] theorem State.leave_rxBudget (s : State) (r : List (BitVec 8)) : (s.leave r).rxBudget = s.rxBudget := rfl

@[simp] theorem State.leave_rxUnbounded (s : State) (r : List (BitVec 8)) : (s.leave r).rxUnbounded = s.rxUnbounded := rfl

@[simp] theorem State.leave_rxLast (s : State) (r : List (BitVec 8)) : (s.leave r).rxLast = s.rxLast := rfl

@[simp] theorem State.leave_rxExtended (s : State) (r : List (BitVec 8)) : (s.leave r).rxExtended = s.rxExtended := rfl

@[simp] theorem State.leave_listening (s : State) (r : List (BitVec 8)) : (s.leave r).listening = s.listening := rfl

@[simp] theorem State.leave_rxFrame (s : State) (r : List (BitVec 8)) : (s.leave r).rxFrame = s.rxFrame := rfl

@[simp] theorem State.leave_host (s : State) (r : List (BitVec 8)) : (s.leave r).host = s.host := rfl

@[simp] theorem State.leave_result (s : State) (r : List (BitVec 8)) : (s.leave r).result = s.result := rfl

@[simp] theorem State.leave_ticks (s : State) (r : List (BitVec 8)) : (s.leave r).ticks = s.ticks := rfl

@[simp] theorem State.leave_rst (s : State) (r : List (BitVec 8)) : (s.leave r).rst = s.rst := rfl

@[simp] theorem State.leave_draws (s : State) (r : List (BitVec 8)) : (s.leave r).draws = s.draws := rfl

@[simp] theorem State.leave_cfg (s : State) (r : List (BitVec 8)) : (s.leave r).cfg = s.cfg := rfl

@[simp] theorem State.leave_t (s : State) (r : List (BitVec 8)) : (s.leave r).t = { s.t with inbound := r } := rfl

@[simp] theorem State.leave_frame (s : State) (r : List (BitVec 8)) (g : FrameSel) : (s.leave r).frame g = s.frame g := by
  cases g <;> rfl

/-- Time accounting (R244) touches the budget, the last sample and the tick input only. -/
theorem State.accountTime_spec (s : State) : ∃ ticks draws, s.accountTime =
    { s with
      ticks := ticks
      draws := draws
      rxLast := s.now.1
      rxBudget :=
        if s.rxUnbounded then s.rxBudget else BitVec.ofNat 31 (s.rxBudget.toNat - (s.now.1 - s.rxLast).toNat) } := by
  obtain ⟨ticks, draws, h⟩ := s.now_spec
  exact ⟨ticks, draws, by simp only [State.accountTime, h]⟩

/-- The budget after the accounting, as a number: it saturates at 0 and never grows (R244). -/
theorem State.accountTime_budget {s : State} (h : s.rxUnbounded = false) :
    s.accountTime.rxBudget.toNat = s.rxBudget.toNat - (s.now.1 - s.rxLast).toNat := by
  have := s.rxBudget.isLt
  simp only [State.accountTime, h, Bool.false_eq_true, if_false, BitVec.toNat_ofNat]
  omega

theorem State.timedOut_iff (s : State) : s.timedOut = true ↔ s.rxUnbounded = false ∧ s.rxBudget = 0 := by
  simp [State.timedOut]

/-- Budget extension (R247): nothing, or the one extension. -/
theorem State.extendBudget_cases (s : State) :
    ((s.rxUnbounded = true ∨ s.rxExtended = true) ∧ s.extendBudget = s) ∨
      (s.rxUnbounded = false ∧ s.rxExtended = false ∧ ∃ byteTimes draws, s.extendBudget =
        { s with
          t := { s.t with byteTimes := byteTimes }
          draws := draws
          rxBudget := BitVec.ofNat 31
            (min (s.rxBudget.toNat + s.byteTime.1 * Config.extBytes s.cfg.profile) Config.budgetMax)
          rxExtended := true }) := by
  cases hu : s.rxUnbounded
  · cases he : s.rxExtended
    · obtain ⟨byteTimes, draws, h⟩ := s.byteTime_spec
      exact .inr ⟨rfl, rfl, byteTimes, draws, by simp [State.extendBudget, hu, he, h]⟩
    · exact .inl ⟨.inr rfl, by simp [State.extendBudget, he]⟩
  · exact .inl ⟨.inl rfl, by simp [State.extendBudget, hu]⟩

/-- The failure exit (R263): the working frame is cleared, its metadata stay, the operation has ended. -/
theorem State.rxFail_spec (s : State) (c : Cause) (v : Nat) : s.rxFail c v =
    { s.setFrame s.rxFrame (s.frame s.rxFrame).clear with
      rxState := .idle, listening := false, result := some (errorResult c v) } := rfl

@[simp] theorem State.rxFail_result (s : State) (c : Cause) (v : Nat) : (s.rxFail c v).result = some (errorResult c v) := rfl

@[simp] theorem State.rxFail_listening (s : State) (c : Cause) (v : Nat) : (s.rxFail c v).listening = false := rfl

@[simp] theorem State.rxFail_rxState (s : State) (c : Cause) (v : Nat) : (s.rxFail c v).rxState = .idle := rfl

theorem State.rxFail_frame (s : State) (c : Cause) (v : Nat) : (s.rxFail c v).frame s.rxFrame = (s.frame s.rxFrame).clear := by
  unfold State.rxFail
  cases s.rxFrame <;> rfl

theorem State.rxFail_frame_other (s : State) (c : Cause) (v : Nat) {g : FrameSel} (h : g ≠ s.rxFrame) :
    (s.rxFail c v).frame g = s.frame g := by
  unfold State.rxFail
  cases hf : s.rxFrame <;> cases g <;> first | rfl | exact absurd hf.symm h

/-- One iteration, said once (R243): the budget is found exhausted, or the state takes its step. -/
theorem rxIteration_cases (s : State) :
    (s.accountTime.timedOut = true ∧ rxIteration s = s.accountTime.rxFail .budgetExhausted) ∨
      (s.accountTime.timedOut = false ∧ rxIteration s = rxStep s.accountTime) := by
  cases h : s.accountTime.timedOut
  · exact .inr ⟨rfl, by simp [rxIteration, h]⟩
  · exact .inl ⟨rfl, by simp [rxIteration, h]⟩

/-- `Idle` (R248). -/
theorem rxIdle_cases (s : State) :
    (s.t.inbound = [] ∧ rxIdle s = s) ∨
      (s.t.inbound ≠ [] ∧ rxIdle s = s.extendBudget.goTo .rxNode) := by
  cases h : s.t.inbound with
  | nil => exact .inl ⟨rfl, by simp [rxIdle, h]⟩
  | cons c r => exact .inr ⟨by simp, by simp [rxIdle, h]⟩

/-- `RxNode` (R249): waits, stores the node, or fails with the three bytes consumed. -/
theorem rxNode_cases (s : State) :
    (s.t.inbound.length < 3 ∧ rxNode s = s) ∨
      (∃ c1 c0 p r, s.t.inbound = c1 :: c0 :: p :: r ∧
        ((∃ v, hex2 c1 c0 = some v ∧
          rxNode s =
            ((s.leave r).setFrame s.rxFrame { s.frame s.rxFrame with node := v }).goTo .rxModule) ∨
          (hex2 c1 c0 = none ∧ rxNode s = (s.leave r).rxFail .malformedField))) := by
  match h : s.t.inbound with
  | [] | [_] | [_, _] => exact .inl ⟨by simp, by simp [rxNode, h]⟩
  | c1 :: c0 :: p :: r =>
    refine .inr ⟨c1, c0, p, r, rfl, ?_⟩
    cases hv : hex2 c1 c0 with
    | none => exact .inr ⟨rfl, by simp [rxNode, h, hv]⟩
    | some v => exact .inl ⟨v, rfl, by simp [rxNode, h, hv]⟩

/-- `RxModule` (R250). -/
theorem rxModule_cases (s : State) :
    (s.t.inbound.length < 5 ∧ rxModule s = s) ∨
      (∃ c3 c2 c1 c0 p r, s.t.inbound = c3 :: c2 :: c1 :: c0 :: p :: r ∧
        ((∃ v, hex4 c3 c2 c1 c0 = some v ∧
          rxModule s =
            ((s.leave r).setFrame s.rxFrame { s.frame s.rxFrame with moduleId := v }).goTo .rxSignal) ∨
          (hex4 c3 c2 c1 c0 = none ∧ rxModule s = (s.leave r).rxFail .malformedField))) := by
  match h : s.t.inbound with
  | [] | [_] | [_, _] | [_, _, _] | [_, _, _, _] => exact .inl ⟨by simp, by simp [rxModule, h]⟩
  | c3 :: c2 :: c1 :: c0 :: p :: r =>
    refine .inr ⟨c3, c2, c1, c0, p, r, rfl, ?_⟩
    cases hv : hex4 c3 c2 c1 c0 with
    | none => exact .inr ⟨rfl, by simp [rxModule, h, hv]⟩
    | some v => exact .inl ⟨v, rfl, by simp [rxModule, h, hv]⟩

/-- `RxSignal` (R251). -/
theorem rxSignal_cases (s : State) :
    (s.t.inbound.length < 3 ∧ rxSignal s = s) ∨
      (∃ c1 c0 p r, s.t.inbound = c1 :: c0 :: p :: r ∧
        ((∃ v, hex2 c1 c0 = some v ∧
          rxSignal s =
            ((s.leave r).setFrame s.rxFrame { s.frame s.rxFrame with sig := v }).goTo .rxHeader) ∨
          (hex2 c1 c0 = none ∧ rxSignal s = (s.leave r).rxFail .malformedField))) := by
  match h : s.t.inbound with
  | [] | [_] | [_, _] => exact .inl ⟨by simp, by simp [rxSignal, h]⟩
  | c1 :: c0 :: p :: r =>
    refine .inr ⟨c1, c0, p, r, rfl, ?_⟩
    cases hv : hex2 c1 c0 with
    | none => exact .inr ⟨rfl, by simp [rxSignal, h, hv]⟩
    | some v => exact .inl ⟨v, rfl, by simp [rxSignal, h, hv]⟩

/-- `RxHeader` (R253): waits, fails, or appends one byte and perhaps goes on to the payload. -/
theorem rxHeader_cases (s : State) :
    (s.nextFrameByte = none ∧ rxHeader s = s) ∨
      (∃ r, s.nextFrameByte = some (none, r) ∧ rxHeader s = (s.leave r).rxFail .malformedField) ∨
      (∃ v r, s.nextFrameByte = some (some v, r) ∧
        ((((s.frame s.rxFrame).put v).wr.val = 3 ∧ rxHeader s = (s.appendByte v r).goTo .rxPayload) ∨
          (((s.frame s.rxFrame).put v).wr.val ≠ 3 ∧ rxHeader s = s.appendByte v r))) := by
  have hw : ∀ v r, ((s.appendByte v r).frame s.rxFrame) = (s.frame s.rxFrame).put v := by
    intro v r
    simp only [State.appendByte, State.frame_setFrame]
  match h : s.nextFrameByte with
  | none => exact .inl ⟨rfl, by simp [rxHeader, h]⟩
  | some (none, r) => exact .inr (.inl ⟨r, rfl, by simp [rxHeader, h]⟩)
  | some (some v, r) =>
    refine .inr (.inr ⟨v, r, rfl, ?_⟩)
    by_cases h3 : ((s.frame s.rxFrame).put v).wr.val = 3
    · exact .inl ⟨h3, by simp [rxHeader, h, hw, h3]⟩
    · exact .inr ⟨h3, by simp [rxHeader, h, hw, h3]⟩

/-- One payload byte (R256): waits, fails, or appends it. -/
theorem rxPayloadByte_cases (s : State) :
    (s.nextFrameByte = none ∧ rxPayloadByte s = s) ∨
      (∃ r, s.nextFrameByte = some (none, r) ∧ rxPayloadByte s = (s.leave r).rxFail .malformedField) ∨
      (∃ v r, s.nextFrameByte = some (some v, r) ∧ rxPayloadByte s = s.appendByte v r) := by
  match h : s.nextFrameByte with
  | none => exact .inl ⟨rfl, by simp [rxPayloadByte, h]⟩
  | some (none, r) => exact .inr (.inl ⟨r, rfl, by simp [rxPayloadByte, h]⟩)
  | some (some v, r) => exact .inr (.inr ⟨v, r, rfl, by simp [rxPayloadByte, h]⟩)

/-- The terminator (R256): waits, or drops two bytes and completes the frame. -/
theorem rxTerminator_cases (s : State) :
    (s.t.inbound.length < 2 ∧ rxTerminator s = s) ∨
      (∃ a b r, s.t.inbound = a :: b :: r ∧ rxTerminator s = (s.leave r).goTo .done) := by
  match h : s.t.inbound with
  | [] | [_] => exact .inl ⟨by simp, by simp [rxTerminator, h]⟩
  | a :: b :: r => exact .inr ⟨a, b, r, rfl, by simp [rxTerminator, h]⟩

/-- `RxPayload` (R255, R256): the length test decides first, then the extent. -/
theorem rxPayload_cases (s : State) :
    ((s.frame s.rxFrame).lengthField = 0 ∧ rxPayload s = s.rxFail .lengthZero) ∨
      (61 < (s.frame s.rxFrame).lengthField ∧ rxPayload s = s.rxFail .lengthTooLarge) ∨
      (1 ≤ (s.frame s.rxFrame).lengthField ∧ (s.frame s.rxFrame).lengthField ≤ 61 ∧
        (((s.frame s.rxFrame).wr.val - 3 < (s.frame s.rxFrame).lengthField ∧ rxPayload s = rxPayloadByte s.arrive) ∨
          ((s.frame s.rxFrame).lengthField ≤ (s.frame s.rxFrame).wr.val - 3 ∧
            rxPayload s = rxTerminator s.arrive))) := by
  by_cases h0 : (s.frame s.rxFrame).lengthField = 0
  · exact .inl ⟨h0, by simp [rxPayload, h0]⟩
  · by_cases h1 : 61 < (s.frame s.rxFrame).lengthField
    · exact .inr (.inl ⟨h1, by simp [rxPayload, h0, h1]⟩)
    · refine .inr (.inr ⟨by omega, by omega, ?_⟩)
      by_cases h2 : (s.frame s.rxFrame).wr.val - 3 < (s.frame s.rxFrame).lengthField
      · exact .inl ⟨h2, by simp [rxPayload, h0, h1, h2]⟩
      · exact .inr ⟨by omega, by simp [rxPayload, h0, h1, h2]⟩

/-- The completed Command (R257, R258): delivered or intercepted. -/
theorem State.commandDone_cases (s : State) (ack : Bool) (n : Nat) :
    ((s.frame s.rxFrame).byte 3 = s.cfg.opcExec ∧
        s.commandDone ack n = s.intercept ack ((s.frame s.rxFrame).bytes 4 (n - 1))) ∨
      ((s.frame s.rxFrame).byte 3 ≠ s.cfg.opcExec ∧ s.commandDone ack n = s.deliver 1) := by
  by_cases h : (s.frame s.rxFrame).byte 3 = s.cfg.opcExec
  · exact .inl ⟨h, by simp [State.commandDone, h]⟩
  · exact .inr ⟨h, by simp [State.commandDone, h]⟩

/-- The intercept (R259 to R262), said once: `T.exec` failed, or it answered and either no Ack is asked for, or the Ack
was accepted whole, or it was not. -/
theorem State.intercept_cases (s : State) (ack : Bool) (p : List (BitVec 8)) :
    ((s.execModule p).1 = none ∧ s.intercept ack p = (s.execModule p).2.rxFail .execFailed) ∨
      (∃ r, (s.execModule p).1 = some r ∧
        ((ack = false ∧ s.intercept ack p = (s.execModule p).2.rxLoop) ∨
          (ack = true ∧ ∃ u x, u = (s.execModule p).2 ∧ x = u.ackFrame u.cfg.opcExec r ∧
            (((u.xmitTxf x).1 = x.wr.val ∧ s.intercept ack p = (u.xmitTxf x).2.rxLoop) ∨
              ((u.xmitTxf x).1 ≠ x.wr.val ∧
                s.intercept ack p = (u.xmitTxf x).2.rxFail .sendMismatch (paramCount r.length)))))) := by
  cases hr : (s.execModule p).1 with
  | none => exact .inl ⟨rfl, by simp [State.intercept, hr]⟩
  | some r =>
    refine .inr ⟨r, rfl, ?_⟩
    cases ack
    · exact .inl ⟨rfl, by simp [State.intercept, hr, State.interceptAck]⟩
    · refine .inr ⟨rfl, _, _, rfl, rfl, ?_⟩
      by_cases h : ((s.execModule p).2.xmitTxf ((s.execModule p).2.ackFrame (s.execModule p).2.cfg.opcExec r)).1
          = ((s.execModule p).2.ackFrame (s.execModule p).2.cfg.opcExec r).wr.val
      · exact .inl ⟨h, by simp [State.intercept, hr, State.interceptAck, h]⟩
      · exact .inr ⟨h, by simp [State.intercept, hr, State.interceptAck, h]⟩

end Sys2Proof.Machine
end

