-- ==== Sys2Proof/Laws/Fields.lean ====
section
/-! SUPPORT. What the inputs, the sender and the receiver's accounting leave alone, field by field, so that no proof has to
take their results apart. -/

namespace Sys2Proof.Machine

/-! ### `now` -/

@[simp] theorem State.now_f0 (s : State) : (s.now.2).f0 = s.f0 := by
  obtain ⟨_, _, h⟩ := s.now_spec
  rw [h]

@[simp] theorem State.now_f1 (s : State) : (s.now.2).f1 = s.f1 := by
  obtain ⟨_, _, h⟩ := s.now_spec
  rw [h]

@[simp] theorem State.now_txf (s : State) : (s.now.2).txf = s.txf := by
  obtain ⟨_, _, h⟩ := s.now_spec
  rw [h]

@[simp] theorem State.now_seq (s : State) : (s.now.2).seq = s.seq := by
  obtain ⟨_, _, h⟩ := s.now_spec
  rw [h]

@[simp] theorem State.now_rxState (s : State) : (s.now.2).rxState = s.rxState := by
  obtain ⟨_, _, h⟩ := s.now_spec
  rw [h]

@[simp] theorem State.now_rxBudget (s : State) : (s.now.2).rxBudget = s.rxBudget := by
  obtain ⟨_, _, h⟩ := s.now_spec
  rw [h]

@[simp] theorem State.now_rxUnbounded (s : State) : (s.now.2).rxUnbounded = s.rxUnbounded := by
  obtain ⟨_, _, h⟩ := s.now_spec
  rw [h]

@[simp] theorem State.now_rxLast (s : State) : (s.now.2).rxLast = s.rxLast := by
  obtain ⟨_, _, h⟩ := s.now_spec
  rw [h]

@[simp] theorem State.now_rxExtended (s : State) : (s.now.2).rxExtended = s.rxExtended := by
  obtain ⟨_, _, h⟩ := s.now_spec
  rw [h]

@[simp] theorem State.now_listening (s : State) : (s.now.2).listening = s.listening := by
  obtain ⟨_, _, h⟩ := s.now_spec
  rw [h]

@[simp] theorem State.now_rxFrame (s : State) : (s.now.2).rxFrame = s.rxFrame := by
  obtain ⟨_, _, h⟩ := s.now_spec
  rw [h]

@[simp] theorem State.now_host (s : State) : (s.now.2).host = s.host := by
  obtain ⟨_, _, h⟩ := s.now_spec
  rw [h]

@[simp] theorem State.now_result (s : State) : (s.now.2).result = s.result := by
  obtain ⟨_, _, h⟩ := s.now_spec
  rw [h]

@[simp] theorem State.now_rst (s : State) : (s.now.2).rst = s.rst := by
  obtain ⟨_, _, h⟩ := s.now_spec
  rw [h]

@[simp] theorem State.now_t (s : State) : (s.now.2).t = s.t := by
  obtain ⟨_, _, h⟩ := s.now_spec
  rw [h]

@[simp] theorem State.now_cfg (s : State) : (s.now.2).cfg = s.cfg := by
  obtain ⟨_, _, h⟩ := s.now_spec
  rw [h]

@[simp] theorem State.now_frame (s : State) (g : FrameSel) : (s.now.2).frame g = s.frame g := by
  cases g <;> simp [State.frame]

/-! ### `arrive` -/

@[simp] theorem State.arrive_f0 (s : State) : (s.arrive).f0 = s.f0 := by
  obtain ⟨_, _, _, h⟩ := s.arrive_spec
  rw [h]

@[simp] theorem State.arrive_f1 (s : State) : (s.arrive).f1 = s.f1 := by
  obtain ⟨_, _, _, h⟩ := s.arrive_spec
  rw [h]

@[simp] theorem State.arrive_txf (s : State) : (s.arrive).txf = s.txf := by
  obtain ⟨_, _, _, h⟩ := s.arrive_spec
  rw [h]

@[simp] theorem State.arrive_seq (s : State) : (s.arrive).seq = s.seq := by
  obtain ⟨_, _, _, h⟩ := s.arrive_spec
  rw [h]

@[simp] theorem State.arrive_rxState (s : State) : (s.arrive).rxState = s.rxState := by
  obtain ⟨_, _, _, h⟩ := s.arrive_spec
  rw [h]

@[simp] theorem State.arrive_rxBudget (s : State) : (s.arrive).rxBudget = s.rxBudget := by
  obtain ⟨_, _, _, h⟩ := s.arrive_spec
  rw [h]

@[simp] theorem State.arrive_rxUnbounded (s : State) : (s.arrive).rxUnbounded = s.rxUnbounded := by
  obtain ⟨_, _, _, h⟩ := s.arrive_spec
  rw [h]

@[simp] theorem State.arrive_rxLast (s : State) : (s.arrive).rxLast = s.rxLast := by
  obtain ⟨_, _, _, h⟩ := s.arrive_spec
  rw [h]

@[simp] theorem State.arrive_rxExtended (s : State) : (s.arrive).rxExtended = s.rxExtended := by
  obtain ⟨_, _, _, h⟩ := s.arrive_spec
  rw [h]

@[simp] theorem State.arrive_listening (s : State) : (s.arrive).listening = s.listening := by
  obtain ⟨_, _, _, h⟩ := s.arrive_spec
  rw [h]

@[simp] theorem State.arrive_rxFrame (s : State) : (s.arrive).rxFrame = s.rxFrame := by
  obtain ⟨_, _, _, h⟩ := s.arrive_spec
  rw [h]

@[simp] theorem State.arrive_host (s : State) : (s.arrive).host = s.host := by
  obtain ⟨_, _, _, h⟩ := s.arrive_spec
  rw [h]

@[simp] theorem State.arrive_result (s : State) : (s.arrive).result = s.result := by
  obtain ⟨_, _, _, h⟩ := s.arrive_spec
  rw [h]

@[simp] theorem State.arrive_ticks (s : State) : (s.arrive).ticks = s.ticks := by
  obtain ⟨_, _, _, h⟩ := s.arrive_spec
  rw [h]

@[simp] theorem State.arrive_rst (s : State) : (s.arrive).rst = s.rst := by
  obtain ⟨_, _, _, h⟩ := s.arrive_spec
  rw [h]

@[simp] theorem State.arrive_cfg (s : State) : (s.arrive).cfg = s.cfg := by
  obtain ⟨_, _, _, h⟩ := s.arrive_spec
  rw [h]

@[simp] theorem State.arrive_frame (s : State) (g : FrameSel) : (s.arrive).frame g = s.frame g := by
  cases g <;> simp [State.frame]

@[simp] theorem State.arrive_t_sendAnswers (s : State) : (s.arrive).t.sendAnswers = s.t.sendAnswers := by
  obtain ⟨_, _, _, h⟩ := s.arrive_spec
  rw [h]

@[simp] theorem State.arrive_t_execAnswers (s : State) : (s.arrive).t.execAnswers = s.t.execAnswers := by
  obtain ⟨_, _, _, h⟩ := s.arrive_spec
  rw [h]

@[simp] theorem State.arrive_t_byteTimes (s : State) : (s.arrive).t.byteTimes = s.t.byteTimes := by
  obtain ⟨_, _, _, h⟩ := s.arrive_spec
  rw [h]

@[simp] theorem State.arrive_t_sent (s : State) : (s.arrive).t.sent = s.t.sent := by
  obtain ⟨_, _, _, h⟩ := s.arrive_spec
  rw [h]

@[simp] theorem State.arrive_t_executed (s : State) : (s.arrive).t.executed = s.t.executed := by
  obtain ⟨_, _, _, h⟩ := s.arrive_spec
  rw [h]

/-! ### `byteTime` -/

@[simp] theorem State.byteTime_f0 (s : State) : (s.byteTime.2).f0 = s.f0 := by
  obtain ⟨_, _, h⟩ := s.byteTime_spec
  rw [h]

@[simp] theorem State.byteTime_f1 (s : State) : (s.byteTime.2).f1 = s.f1 := by
  obtain ⟨_, _, h⟩ := s.byteTime_spec
  rw [h]

@[simp] theorem State.byteTime_txf (s : State) : (s.byteTime.2).txf = s.txf := by
  obtain ⟨_, _, h⟩ := s.byteTime_spec
  rw [h]

@[simp] theorem State.byteTime_seq (s : State) : (s.byteTime.2).seq = s.seq := by
  obtain ⟨_, _, h⟩ := s.byteTime_spec
  rw [h]

@[simp] theorem State.byteTime_rxState (s : State) : (s.byteTime.2).rxState = s.rxState := by
  obtain ⟨_, _, h⟩ := s.byteTime_spec
  rw [h]

@[simp] theorem State.byteTime_rxBudget (s : State) : (s.byteTime.2).rxBudget = s.rxBudget := by
  obtain ⟨_, _, h⟩ := s.byteTime_spec
  rw [h]

@[simp] theorem State.byteTime_rxUnbounded (s : State) : (s.byteTime.2).rxUnbounded = s.rxUnbounded := by
  obtain ⟨_, _, h⟩ := s.byteTime_spec
  rw [h]

@[simp] theorem State.byteTime_rxLast (s : State) : (s.byteTime.2).rxLast = s.rxLast := by
  obtain ⟨_, _, h⟩ := s.byteTime_spec
  rw [h]

@[simp] theorem State.byteTime_rxExtended (s : State) : (s.byteTime.2).rxExtended = s.rxExtended := by
  obtain ⟨_, _, h⟩ := s.byteTime_spec
  rw [h]

@[simp] theorem State.byteTime_listening (s : State) : (s.byteTime.2).listening = s.listening := by
  obtain ⟨_, _, h⟩ := s.byteTime_spec
  rw [h]

@[simp] theorem State.byteTime_rxFrame (s : State) : (s.byteTime.2).rxFrame = s.rxFrame := by
  obtain ⟨_, _, h⟩ := s.byteTime_spec
  rw [h]

@[simp] theorem State.byteTime_host (s : State) : (s.byteTime.2).host = s.host := by
  obtain ⟨_, _, h⟩ := s.byteTime_spec
  rw [h]

@[simp] theorem State.byteTime_result (s : State) : (s.byteTime.2).result = s.result := by
  obtain ⟨_, _, h⟩ := s.byteTime_spec
  rw [h]

@[simp] theorem State.byteTime_ticks (s : State) : (s.byteTime.2).ticks = s.ticks := by
  obtain ⟨_, _, h⟩ := s.byteTime_spec
  rw [h]

@[simp] theorem State.byteTime_rst (s : State) : (s.byteTime.2).rst = s.rst := by
  obtain ⟨_, _, h⟩ := s.byteTime_spec
  rw [h]

@[simp] theorem State.byteTime_cfg (s : State) : (s.byteTime.2).cfg = s.cfg := by
  obtain ⟨_, _, h⟩ := s.byteTime_spec
  rw [h]

@[simp] theorem State.byteTime_frame (s : State) (g : FrameSel) : (s.byteTime.2).frame g = s.frame g := by
  cases g <;> simp [State.frame]

@[simp] theorem State.byteTime_t_inbound (s : State) : (s.byteTime.2).t.inbound = s.t.inbound := by
  obtain ⟨_, _, h⟩ := s.byteTime_spec
  rw [h]

@[simp] theorem State.byteTime_t_arrivals (s : State) : (s.byteTime.2).t.arrivals = s.t.arrivals := by
  obtain ⟨_, _, h⟩ := s.byteTime_spec
  rw [h]

@[simp] theorem State.byteTime_t_sendAnswers (s : State) : (s.byteTime.2).t.sendAnswers = s.t.sendAnswers := by
  obtain ⟨_, _, h⟩ := s.byteTime_spec
  rw [h]

@[simp] theorem State.byteTime_t_execAnswers (s : State) : (s.byteTime.2).t.execAnswers = s.t.execAnswers := by
  obtain ⟨_, _, h⟩ := s.byteTime_spec
  rw [h]

@[simp] theorem State.byteTime_t_sent (s : State) : (s.byteTime.2).t.sent = s.t.sent := by
  obtain ⟨_, _, h⟩ := s.byteTime_spec
  rw [h]

@[simp] theorem State.byteTime_t_executed (s : State) : (s.byteTime.2).t.executed = s.t.executed := by
  obtain ⟨_, _, h⟩ := s.byteTime_spec
  rw [h]

/-! ### `sampleRst` -/

@[simp] theorem State.sampleRst_f0 (s : State) : (s.sampleRst.2).f0 = s.f0 := by
  obtain ⟨_, h⟩ := s.sampleRst_spec
  rw [h]

@[simp] theorem State.sampleRst_f1 (s : State) : (s.sampleRst.2).f1 = s.f1 := by
  obtain ⟨_, h⟩ := s.sampleRst_spec
  rw [h]

@[simp] theorem State.sampleRst_txf (s : State) : (s.sampleRst.2).txf = s.txf := by
  obtain ⟨_, h⟩ := s.sampleRst_spec
  rw [h]

@[simp] theorem State.sampleRst_seq (s : State) : (s.sampleRst.2).seq = s.seq := by
  obtain ⟨_, h⟩ := s.sampleRst_spec
  rw [h]

@[simp] theorem State.sampleRst_rxState (s : State) : (s.sampleRst.2).rxState = s.rxState := by
  obtain ⟨_, h⟩ := s.sampleRst_spec
  rw [h]

@[simp] theorem State.sampleRst_rxBudget (s : State) : (s.sampleRst.2).rxBudget = s.rxBudget := by
  obtain ⟨_, h⟩ := s.sampleRst_spec
  rw [h]

@[simp] theorem State.sampleRst_rxUnbounded (s : State) : (s.sampleRst.2).rxUnbounded = s.rxUnbounded := by
  obtain ⟨_, h⟩ := s.sampleRst_spec
  rw [h]

@[simp] theorem State.sampleRst_rxLast (s : State) : (s.sampleRst.2).rxLast = s.rxLast := by
  obtain ⟨_, h⟩ := s.sampleRst_spec
  rw [h]

@[simp] theorem State.sampleRst_rxExtended (s : State) : (s.sampleRst.2).rxExtended = s.rxExtended := by
  obtain ⟨_, h⟩ := s.sampleRst_spec
  rw [h]

@[simp] theorem State.sampleRst_listening (s : State) : (s.sampleRst.2).listening = s.listening := by
  obtain ⟨_, h⟩ := s.sampleRst_spec
  rw [h]

@[simp] theorem State.sampleRst_rxFrame (s : State) : (s.sampleRst.2).rxFrame = s.rxFrame := by
  obtain ⟨_, h⟩ := s.sampleRst_spec
  rw [h]

@[simp] theorem State.sampleRst_host (s : State) : (s.sampleRst.2).host = s.host := by
  obtain ⟨_, h⟩ := s.sampleRst_spec
  rw [h]

@[simp] theorem State.sampleRst_result (s : State) : (s.sampleRst.2).result = s.result := by
  obtain ⟨_, h⟩ := s.sampleRst_spec
  rw [h]

@[simp] theorem State.sampleRst_ticks (s : State) : (s.sampleRst.2).ticks = s.ticks := by
  obtain ⟨_, h⟩ := s.sampleRst_spec
  rw [h]

@[simp] theorem State.sampleRst_t (s : State) : (s.sampleRst.2).t = s.t := by
  obtain ⟨_, h⟩ := s.sampleRst_spec
  rw [h]

@[simp] theorem State.sampleRst_draws (s : State) : (s.sampleRst.2).draws = s.draws := by
  obtain ⟨_, h⟩ := s.sampleRst_spec
  rw [h]

@[simp] theorem State.sampleRst_cfg (s : State) : (s.sampleRst.2).cfg = s.cfg := by
  obtain ⟨_, h⟩ := s.sampleRst_spec
  rw [h]

@[simp] theorem State.sampleRst_frame (s : State) (g : FrameSel) : (s.sampleRst.2).frame g = s.frame g := by
  cases g <;> simp [State.frame]

/-! ### `accountTime` -/

@[simp] theorem State.accountTime_f0 (s : State) : (s.accountTime).f0 = s.f0 := by
  obtain ⟨_, _, h⟩ := s.accountTime_spec
  rw [h]

@[simp] theorem State.accountTime_f1 (s : State) : (s.accountTime).f1 = s.f1 := by
  obtain ⟨_, _, h⟩ := s.accountTime_spec
  rw [h]

@[simp] theorem State.accountTime_txf (s : State) : (s.accountTime).txf = s.txf := by
  obtain ⟨_, _, h⟩ := s.accountTime_spec
  rw [h]

@[simp] theorem State.accountTime_seq (s : State) : (s.accountTime).seq = s.seq := by
  obtain ⟨_, _, h⟩ := s.accountTime_spec
  rw [h]

@[simp] theorem State.accountTime_rxState (s : State) : (s.accountTime).rxState = s.rxState := by
  obtain ⟨_, _, h⟩ := s.accountTime_spec
  rw [h]

@[simp] theorem State.accountTime_rxUnbounded (s : State) : (s.accountTime).rxUnbounded = s.rxUnbounded := by
  obtain ⟨_, _, h⟩ := s.accountTime_spec
  rw [h]

@[simp] theorem State.accountTime_rxExtended (s : State) : (s.accountTime).rxExtended = s.rxExtended := by
  obtain ⟨_, _, h⟩ := s.accountTime_spec
  rw [h]

@[simp] theorem State.accountTime_listening (s : State) : (s.accountTime).listening = s.listening := by
  obtain ⟨_, _, h⟩ := s.accountTime_spec
  rw [h]

@[simp] theorem State.accountTime_rxFrame (s : State) : (s.accountTime).rxFrame = s.rxFrame := by
  obtain ⟨_, _, h⟩ := s.accountTime_spec
  rw [h]

@[simp] theorem State.accountTime_host (s : State) : (s.accountTime).host = s.host := by
  obtain ⟨_, _, h⟩ := s.accountTime_spec
  rw [h]

@[simp] theorem State.accountTime_result (s : State) : (s.accountTime).result = s.result := by
  obtain ⟨_, _, h⟩ := s.accountTime_spec
  rw [h]

@[simp] theorem State.accountTime_rst (s : State) : (s.accountTime).rst = s.rst := by
  obtain ⟨_, _, h⟩ := s.accountTime_spec
  rw [h]

@[simp] theorem State.accountTime_t (s : State) : (s.accountTime).t = s.t := by
  obtain ⟨_, _, h⟩ := s.accountTime_spec
  rw [h]

@[simp] theorem State.accountTime_cfg (s : State) : (s.accountTime).cfg = s.cfg := by
  obtain ⟨_, _, h⟩ := s.accountTime_spec
  rw [h]

@[simp] theorem State.accountTime_frame (s : State) (g : FrameSel) : (s.accountTime).frame g = s.frame g := by
  cases g <;> simp [State.frame]

@[simp] theorem State.accountTime_rxLast (s : State) : s.accountTime.rxLast = s.now.1 := rfl

/-! ### `xmitTxf` -/

@[simp] theorem State.xmitTxf_f0 (s : State) (x : Frame) : ((s.xmitTxf x).2).f0 = s.f0 := by
  obtain ⟨_, _, h⟩ := s.xmitTxf_spec x
  rw [h]

@[simp] theorem State.xmitTxf_f1 (s : State) (x : Frame) : ((s.xmitTxf x).2).f1 = s.f1 := by
  obtain ⟨_, _, h⟩ := s.xmitTxf_spec x
  rw [h]

@[simp] theorem State.xmitTxf_rxState (s : State) (x : Frame) : ((s.xmitTxf x).2).rxState = s.rxState := by
  obtain ⟨_, _, h⟩ := s.xmitTxf_spec x
  rw [h]

@[simp] theorem State.xmitTxf_rxBudget (s : State) (x : Frame) : ((s.xmitTxf x).2).rxBudget = s.rxBudget := by
  obtain ⟨_, _, h⟩ := s.xmitTxf_spec x
  rw [h]

@[simp] theorem State.xmitTxf_rxUnbounded (s : State) (x : Frame) : ((s.xmitTxf x).2).rxUnbounded = s.rxUnbounded := by
  obtain ⟨_, _, h⟩ := s.xmitTxf_spec x
  rw [h]

@[simp] theorem State.xmitTxf_rxLast (s : State) (x : Frame) : ((s.xmitTxf x).2).rxLast = s.rxLast := by
  obtain ⟨_, _, h⟩ := s.xmitTxf_spec x
  rw [h]

@[simp] theorem State.xmitTxf_rxExtended (s : State) (x : Frame) : ((s.xmitTxf x).2).rxExtended = s.rxExtended := by
  obtain ⟨_, _, h⟩ := s.xmitTxf_spec x
  rw [h]

@[simp] theorem State.xmitTxf_listening (s : State) (x : Frame) : ((s.xmitTxf x).2).listening = s.listening := by
  obtain ⟨_, _, h⟩ := s.xmitTxf_spec x
  rw [h]

@[simp] theorem State.xmitTxf_rxFrame (s : State) (x : Frame) : ((s.xmitTxf x).2).rxFrame = s.rxFrame := by
  obtain ⟨_, _, h⟩ := s.xmitTxf_spec x
  rw [h]

@[simp] theorem State.xmitTxf_host (s : State) (x : Frame) : ((s.xmitTxf x).2).host = s.host := by
  obtain ⟨_, _, h⟩ := s.xmitTxf_spec x
  rw [h]

@[simp] theorem State.xmitTxf_result (s : State) (x : Frame) : ((s.xmitTxf x).2).result = s.result := by
  obtain ⟨_, _, h⟩ := s.xmitTxf_spec x
  rw [h]

@[simp] theorem State.xmitTxf_ticks (s : State) (x : Frame) : ((s.xmitTxf x).2).ticks = s.ticks := by
  obtain ⟨_, _, h⟩ := s.xmitTxf_spec x
  rw [h]

@[simp] theorem State.xmitTxf_rst (s : State) (x : Frame) : ((s.xmitTxf x).2).rst = s.rst := by
  obtain ⟨_, _, h⟩ := s.xmitTxf_spec x
  rw [h]

@[simp] theorem State.xmitTxf_cfg (s : State) (x : Frame) : ((s.xmitTxf x).2).cfg = s.cfg := by
  obtain ⟨_, _, h⟩ := s.xmitTxf_spec x
  rw [h]

@[simp] theorem State.xmitTxf_frame (s : State) (x : Frame) (g : FrameSel) : ((s.xmitTxf x).2).frame g = s.frame g := by
  cases g <;> simp [State.frame]

@[simp] theorem State.xmitTxf_t_inbound (s : State) (x : Frame) : ((s.xmitTxf x).2).t.inbound = s.t.inbound := by
  obtain ⟨_, _, h⟩ := s.xmitTxf_spec x
  rw [h]

@[simp] theorem State.xmitTxf_t_arrivals (s : State) (x : Frame) : ((s.xmitTxf x).2).t.arrivals = s.t.arrivals := by
  obtain ⟨_, _, h⟩ := s.xmitTxf_spec x
  rw [h]

@[simp] theorem State.xmitTxf_t_execAnswers (s : State) (x : Frame) : ((s.xmitTxf x).2).t.execAnswers = s.t.execAnswers := by
  obtain ⟨_, _, h⟩ := s.xmitTxf_spec x
  rw [h]

@[simp] theorem State.xmitTxf_t_byteTimes (s : State) (x : Frame) : ((s.xmitTxf x).2).t.byteTimes = s.t.byteTimes := by
  obtain ⟨_, _, h⟩ := s.xmitTxf_spec x
  rw [h]

@[simp] theorem State.xmitTxf_t_executed (s : State) (x : Frame) : ((s.xmitTxf x).2).t.executed = s.t.executed := by
  obtain ⟨_, _, h⟩ := s.xmitTxf_spec x
  rw [h]

@[simp] theorem State.xmitTxf_seq (s : State) (x : Frame) : (s.xmitTxf x).2.seq = s.seq + 1 := by
  obtain ⟨_, _, h⟩ := s.xmitTxf_spec x
  rw [h]

@[simp] theorem State.xmitTxf_txf (s : State) (x : Frame) : (s.xmitTxf x).2.txf = s.stamped x := by
  obtain ⟨_, _, h⟩ := s.xmitTxf_spec x
  rw [h]

theorem State.xmitTxf_sent (s : State) (x : Frame) :
    (s.xmitTxf x).2.t.sent = s.t.sent ++ [⟨(s.stamped x).content, (s.xmitTxf x).1⟩] := by
  obtain ⟨_, _, h⟩ := s.xmitTxf_spec x
  rw [h]

/-! ### `execModule` -/

@[simp] theorem State.execModule_f0 (s : State) (c : List (BitVec 8)) : ((s.execModule c).2).f0 = s.f0 := by
  obtain ⟨_, _, h⟩ := s.execModule_spec c
  rw [h]

@[simp] theorem State.execModule_f1 (s : State) (c : List (BitVec 8)) : ((s.execModule c).2).f1 = s.f1 := by
  obtain ⟨_, _, h⟩ := s.execModule_spec c
  rw [h]

@[simp] theorem State.execModule_txf (s : State) (c : List (BitVec 8)) : ((s.execModule c).2).txf = s.txf := by
  obtain ⟨_, _, h⟩ := s.execModule_spec c
  rw [h]

@[simp] theorem State.execModule_seq (s : State) (c : List (BitVec 8)) : ((s.execModule c).2).seq = s.seq := by
  obtain ⟨_, _, h⟩ := s.execModule_spec c
  rw [h]

@[simp] theorem State.execModule_rxState (s : State) (c : List (BitVec 8)) : ((s.execModule c).2).rxState = s.rxState := by
  obtain ⟨_, _, h⟩ := s.execModule_spec c
  rw [h]

@[simp] theorem State.execModule_rxBudget (s : State) (c : List (BitVec 8)) : ((s.execModule c).2).rxBudget = s.rxBudget := by
  obtain ⟨_, _, h⟩ := s.execModule_spec c
  rw [h]

@[simp] theorem State.execModule_rxUnbounded (s : State) (c : List (BitVec 8)) : ((s.execModule c).2).rxUnbounded = s.rxUnbounded := by
  obtain ⟨_, _, h⟩ := s.execModule_spec c
  rw [h]

@[simp] theorem State.execModule_rxLast (s : State) (c : List (BitVec 8)) : ((s.execModule c).2).rxLast = s.rxLast := by
  obtain ⟨_, _, h⟩ := s.execModule_spec c
  rw [h]

@[simp] theorem State.execModule_rxExtended (s : State) (c : List (BitVec 8)) : ((s.execModule c).2).rxExtended = s.rxExtended := by
  obtain ⟨_, _, h⟩ := s.execModule_spec c
  rw [h]

@[simp] theorem State.execModule_listening (s : State) (c : List (BitVec 8)) : ((s.execModule c).2).listening = s.listening := by
  obtain ⟨_, _, h⟩ := s.execModule_spec c
  rw [h]

@[simp] theorem State.execModule_rxFrame (s : State) (c : List (BitVec 8)) : ((s.execModule c).2).rxFrame = s.rxFrame := by
  obtain ⟨_, _, h⟩ := s.execModule_spec c
  rw [h]

@[simp] theorem State.execModule_host (s : State) (c : List (BitVec 8)) : ((s.execModule c).2).host = s.host := by
  obtain ⟨_, _, h⟩ := s.execModule_spec c
  rw [h]

@[simp] theorem State.execModule_result (s : State) (c : List (BitVec 8)) : ((s.execModule c).2).result = s.result := by
  obtain ⟨_, _, h⟩ := s.execModule_spec c
  rw [h]

@[simp] theorem State.execModule_ticks (s : State) (c : List (BitVec 8)) : ((s.execModule c).2).ticks = s.ticks := by
  obtain ⟨_, _, h⟩ := s.execModule_spec c
  rw [h]

@[simp] theorem State.execModule_rst (s : State) (c : List (BitVec 8)) : ((s.execModule c).2).rst = s.rst := by
  obtain ⟨_, _, h⟩ := s.execModule_spec c
  rw [h]

@[simp] theorem State.execModule_cfg (s : State) (c : List (BitVec 8)) : ((s.execModule c).2).cfg = s.cfg := by
  obtain ⟨_, _, h⟩ := s.execModule_spec c
  rw [h]

@[simp] theorem State.execModule_frame (s : State) (c : List (BitVec 8)) (g : FrameSel) : ((s.execModule c).2).frame g = s.frame g := by
  cases g <;> simp [State.frame]

@[simp] theorem State.execModule_t_inbound (s : State) (c : List (BitVec 8)) : ((s.execModule c).2).t.inbound = s.t.inbound := by
  obtain ⟨_, _, h⟩ := s.execModule_spec c
  rw [h]

@[simp] theorem State.execModule_t_arrivals (s : State) (c : List (BitVec 8)) : ((s.execModule c).2).t.arrivals = s.t.arrivals := by
  obtain ⟨_, _, h⟩ := s.execModule_spec c
  rw [h]

@[simp] theorem State.execModule_t_sendAnswers (s : State) (c : List (BitVec 8)) : ((s.execModule c).2).t.sendAnswers = s.t.sendAnswers := by
  obtain ⟨_, _, h⟩ := s.execModule_spec c
  rw [h]

@[simp] theorem State.execModule_t_byteTimes (s : State) (c : List (BitVec 8)) : ((s.execModule c).2).t.byteTimes = s.t.byteTimes := by
  obtain ⟨_, _, h⟩ := s.execModule_spec c
  rw [h]

@[simp] theorem State.execModule_t_sent (s : State) (c : List (BitVec 8)) : ((s.execModule c).2).t.sent = s.t.sent := by
  obtain ⟨_, _, h⟩ := s.execModule_spec c
  rw [h]

theorem State.execModule_executed (s : State) (c : List (BitVec 8)) :
    (s.execModule c).2.t.executed = s.t.executed ++ [⟨c, (s.execModule c).1⟩] := by
  obtain ⟨_, _, h⟩ := s.execModule_spec c
  rw [h]

/-! ### `extendBudget` -/

@[simp] theorem State.extendBudget_f0 (s : State) : s.extendBudget.f0 = s.f0 := by
  obtain ⟨_, e⟩ | ⟨_, _, _, _, e⟩ := s.extendBudget_cases <;> rw [e]

@[simp] theorem State.extendBudget_f1 (s : State) : s.extendBudget.f1 = s.f1 := by
  obtain ⟨_, e⟩ | ⟨_, _, _, _, e⟩ := s.extendBudget_cases <;> rw [e]

@[simp] theorem State.extendBudget_txf (s : State) : s.extendBudget.txf = s.txf := by
  obtain ⟨_, e⟩ | ⟨_, _, _, _, e⟩ := s.extendBudget_cases <;> rw [e]

@[simp] theorem State.extendBudget_seq (s : State) : s.extendBudget.seq = s.seq := by
  obtain ⟨_, e⟩ | ⟨_, _, _, _, e⟩ := s.extendBudget_cases <;> rw [e]

@[simp] theorem State.extendBudget_rxState (s : State) : s.extendBudget.rxState = s.rxState := by
  obtain ⟨_, e⟩ | ⟨_, _, _, _, e⟩ := s.extendBudget_cases <;> rw [e]

@[simp] theorem State.extendBudget_rxUnbounded (s : State) : s.extendBudget.rxUnbounded = s.rxUnbounded := by
  obtain ⟨_, e⟩ | ⟨_, _, _, _, e⟩ := s.extendBudget_cases <;> rw [e]

@[simp] theorem State.extendBudget_rxLast (s : State) : s.extendBudget.rxLast = s.rxLast := by
  obtain ⟨_, e⟩ | ⟨_, _, _, _, e⟩ := s.extendBudget_cases <;> rw [e]

@[simp] theorem State.extendBudget_listening (s : State) : s.extendBudget.listening = s.listening := by
  obtain ⟨_, e⟩ | ⟨_, _, _, _, e⟩ := s.extendBudget_cases <;> rw [e]

@[simp] theorem State.extendBudget_rxFrame (s : State) : s.extendBudget.rxFrame = s.rxFrame := by
  obtain ⟨_, e⟩ | ⟨_, _, _, _, e⟩ := s.extendBudget_cases <;> rw [e]

@[simp] theorem State.extendBudget_host (s : State) : s.extendBudget.host = s.host := by
  obtain ⟨_, e⟩ | ⟨_, _, _, _, e⟩ := s.extendBudget_cases <;> rw [e]

@[simp] theorem State.extendBudget_result (s : State) : s.extendBudget.result = s.result := by
  obtain ⟨_, e⟩ | ⟨_, _, _, _, e⟩ := s.extendBudget_cases <;> rw [e]

@[simp] theorem State.extendBudget_ticks (s : State) : s.extendBudget.ticks = s.ticks := by
  obtain ⟨_, e⟩ | ⟨_, _, _, _, e⟩ := s.extendBudget_cases <;> rw [e]

@[simp] theorem State.extendBudget_rst (s : State) : s.extendBudget.rst = s.rst := by
  obtain ⟨_, e⟩ | ⟨_, _, _, _, e⟩ := s.extendBudget_cases <;> rw [e]

@[simp] theorem State.extendBudget_cfg (s : State) : s.extendBudget.cfg = s.cfg := by
  obtain ⟨_, e⟩ | ⟨_, _, _, _, e⟩ := s.extendBudget_cases <;> rw [e]

@[simp] theorem State.extendBudget_frame (s : State) (g : FrameSel) : s.extendBudget.frame g = s.frame g := by
  cases g <;> simp [State.frame]

@[simp] theorem State.extendBudget_t_inbound (s : State) : s.extendBudget.t.inbound = s.t.inbound := by
  obtain ⟨_, e⟩ | ⟨_, _, _, _, e⟩ := s.extendBudget_cases <;> rw [e]

@[simp] theorem State.extendBudget_t_arrivals (s : State) : s.extendBudget.t.arrivals = s.t.arrivals := by
  obtain ⟨_, e⟩ | ⟨_, _, _, _, e⟩ := s.extendBudget_cases <;> rw [e]

@[simp] theorem State.extendBudget_t_sendAnswers (s : State) : s.extendBudget.t.sendAnswers = s.t.sendAnswers := by
  obtain ⟨_, e⟩ | ⟨_, _, _, _, e⟩ := s.extendBudget_cases <;> rw [e]

@[simp] theorem State.extendBudget_t_execAnswers (s : State) : s.extendBudget.t.execAnswers = s.t.execAnswers := by
  obtain ⟨_, e⟩ | ⟨_, _, _, _, e⟩ := s.extendBudget_cases <;> rw [e]

@[simp] theorem State.extendBudget_t_sent (s : State) : s.extendBudget.t.sent = s.t.sent := by
  obtain ⟨_, e⟩ | ⟨_, _, _, _, e⟩ := s.extendBudget_cases <;> rw [e]

@[simp] theorem State.extendBudget_t_executed (s : State) : s.extendBudget.t.executed = s.t.executed := by
  obtain ⟨_, e⟩ | ⟨_, _, _, _, e⟩ := s.extendBudget_cases <;> rw [e]

/-! ### The failure exit -/

@[simp] theorem State.rxFail_txf (s : State) (c : Cause) (v : Nat) : (s.rxFail c v).txf = s.txf := by
  simp [State.rxFail]

@[simp] theorem State.rxFail_seq (s : State) (c : Cause) (v : Nat) : (s.rxFail c v).seq = s.seq := by
  simp [State.rxFail]

@[simp] theorem State.rxFail_rxBudget (s : State) (c : Cause) (v : Nat) : (s.rxFail c v).rxBudget = s.rxBudget := by
  simp [State.rxFail]

@[simp] theorem State.rxFail_rxUnbounded (s : State) (c : Cause) (v : Nat) : (s.rxFail c v).rxUnbounded = s.rxUnbounded := by
  simp [State.rxFail]

@[simp] theorem State.rxFail_rxLast (s : State) (c : Cause) (v : Nat) : (s.rxFail c v).rxLast = s.rxLast := by
  simp [State.rxFail]

@[simp] theorem State.rxFail_rxExtended (s : State) (c : Cause) (v : Nat) : (s.rxFail c v).rxExtended = s.rxExtended := by
  simp [State.rxFail]

@[simp] theorem State.rxFail_rxFrame (s : State) (c : Cause) (v : Nat) : (s.rxFail c v).rxFrame = s.rxFrame := by
  simp [State.rxFail]

@[simp] theorem State.rxFail_host (s : State) (c : Cause) (v : Nat) : (s.rxFail c v).host = s.host := by
  simp [State.rxFail]

@[simp] theorem State.rxFail_ticks (s : State) (c : Cause) (v : Nat) : (s.rxFail c v).ticks = s.ticks := by
  simp [State.rxFail]

@[simp] theorem State.rxFail_rst (s : State) (c : Cause) (v : Nat) : (s.rxFail c v).rst = s.rst := by
  simp [State.rxFail]

@[simp] theorem State.rxFail_t (s : State) (c : Cause) (v : Nat) : (s.rxFail c v).t = s.t := by
  simp [State.rxFail]

@[simp] theorem State.rxFail_draws (s : State) (c : Cause) (v : Nat) : (s.rxFail c v).draws = s.draws := by
  simp [State.rxFail]

@[simp] theorem State.rxFail_cfg (s : State) (c : Cause) (v : Nat) : (s.rxFail c v).cfg = s.cfg := by
  simp [State.rxFail]

/-! ### Frames stay well formed -/

theorem Frame.ok_stamped (s : State) {x : Frame} (h : x.ok = true) : (s.stamped x).ok = true :=
  Frame.ok_setByte h (by omega) _

/-- The identifier that `xmit` writes is `SEQ` (R211). -/
theorem Frame.byte_stamped (s : State) {x : Frame} (h : x.ok = true) (a : Nat) :
    (s.stamped x).byte a = if a = 2 then s.seq else x.byte a := Frame.byte_setByte (Frame.ok_wf h) 2 a s.seq

/-- What is sent is the frame's content with the identifier in place (R211). -/
theorem Frame.content_stamped (s : State) {x : Frame} (h : x.ok = true) :
    (s.stamped x).content = x.content.set 2 s.seq := by
  apply List.ext_getElem
  · simp [Frame.content, State.stamped]
  · intro i h1 h2
    rw [List.getElem_set]
    simp only [Frame.content, Frame.getElem_bytes, Nat.zero_add, Frame.byte_stamped s h]
    by_cases hi : i = 2
    · simp [hi]
    · simp [hi, Ne.symm hi]

theorem State.ok_setFrame {s : State} (f : FrameSel) {x : Frame} (h : ∀ g, (s.frame g).ok = true) (hx : x.ok = true)
    (g : FrameSel) : ((s.setFrame f x).frame g).ok = true := by
  rw [State.frame_setFrame_eq]
  split
  · exact hx
  · exact h g

/-- The invariant, spelt out. -/
theorem State.inv_iff (s : State) : s.inv = true ↔
    (∀ g, (s.frame g).ok = true) ∧ s.txf.ok = true ∧
      (s.listening = true → rxFrameOk (s.frame s.rxFrame) s.rxState = true) ∧
      (s.listening = false → s.rxState = .idle) := by
  simp only [State.inv, Bool.and_eq_true]
  constructor
  · rintro ⟨⟨⟨a, b⟩, c⟩, d⟩
    exact ⟨fun g => by cases g <;> assumption, c, fun h => by simpa [h] using d, fun h => by simpa [h] using d⟩
  · rintro ⟨a, b, c, d⟩
    refine ⟨⟨⟨a .f0, a .f1⟩, b⟩, ?_⟩
    cases h : s.listening <;> simp_all

end Sys2Proof.Machine
end

