-- ==== Sys2Proof/Laws/Listen.lean ====
section
/-! SUPPORT. A step of the running RCV.LISTEN in the terms of the claims: the sample of the reset input out of the way,
the accounting as `outOfTime` and `charged`, and which state of the receiver takes its step. -/

namespace Sys2Proof.Machine

@[simp] theorem State.sampleRst_rst (s : State) : s.sampleRst.2.rst = s.rst.tail := by
  unfold State.sampleRst
  split
  · simp [*]
  · simp [*]

@[simp] theorem State.now_sampleRst (s : State) : s.sampleRst.2.now.1 = s.now.1 := by
  obtain ⟨_, h⟩ := s.sampleRst_spec
  rw [h]
  unfold State.now
  cases s.ticks <;> rfl

/-- The timeout test after the accounting (R244, R245). -/
theorem State.timedOut_accountTime (s : State) : s.sampleRst.2.accountTime.timedOut = s.outOfTime := by
  unfold State.timedOut State.outOfTime State.elapsed
  cases hu : s.rxUnbounded
  · have h := State.accountTime_budget (s := s.sampleRst.2) (by simpa using hu)
    simp only [State.now_sampleRst, State.sampleRst_rxBudget, State.sampleRst_rxLast] at h
    simp only [State.accountTime_rxUnbounded, State.sampleRst_rxUnbounded, hu, Bool.not_false, Bool.true_and,
      decide_eq_decide, ← BitVec.toNat_inj, h, BitVec.ofNat_eq_ofNat, BitVec.toNat_zero]
    omega
  · simp [hu]

/-- The budget after the accounting (R244). -/
theorem State.charged_eq (s : State) : s.sampleRst.2.accountTime.rxBudget.toNat = s.charged := by
  unfold State.charged State.elapsed
  cases hu : s.rxUnbounded
  · have h := State.accountTime_budget (s := s.sampleRst.2) (by simpa using hu)
    simpa using h
  · obtain ⟨_, _, h⟩ := s.sampleRst.2.accountTime_spec
    rw [h]
    simp [hu]

/-- A step of a running `RCV.LISTEN` is an iteration (R240, R243). -/
theorem step_iterates {s : State} (h : s.iterates) : step s = .next (rxIteration s.sampleRst.2) := by
  obtain ⟨h1, h2, h3⟩ := h
  simp [step, h1, State.run, State.fetch, h2, h3, State.idleOrIterate]

/-- With time left, the state takes its step (R243). -/
theorem step_rxStep {s : State} (h : s.iterates) (ho : s.outOfTime = false) :
    step s = .next (rxStep s.sampleRst.2.accountTime) := by
  rw [step_iterates h]
  obtain ⟨h1, _⟩ | ⟨_, e⟩ := rxIteration_cases s.sampleRst.2
  · rw [State.timedOut_accountTime, ho] at h1
    cases h1
  · rw [e]

/-- The accounting alone leaves what an iteration leaves alone. -/
theorem State.sameAroundReceive_accountTime (s : State) : s.sameAroundReceive s.sampleRst.2.accountTime :=
  ⟨by simp, by simp⟩

/-- So does the query that follows it. -/
theorem State.sameAroundReceive_arrive (s : State) : s.sameAroundReceive s.sampleRst.2.accountTime.arrive :=
  ⟨by simp, by simp⟩

/-- The failure exit from a state whose working frame is still the one the iteration began with (R263). -/
theorem State.failsWith_rxFail {s u : State} (c : Cause) (hu : s.sameAroundReceive u)
    (hw : u.frame s.rxFrame = s.frame s.rxFrame) :
    s.failsWith (u.rxFail c) c ∧ s.sameAroundReceive (u.rxFail c) := by
  obtain ⟨h1, h2, h3, h4, h5, h6⟩ := hu
  refine ⟨⟨by simp, ?_, ?_, rfl, rfl⟩, ⟨fun g hg => ?_, by simpa using ⟨h2, h3, h4, h5, h6⟩⟩⟩
  · rw [← h5, State.rxFail_frame]
    simp [Frame.isClear]
  · rw [← h5, State.rxFail_frame, h5, hw]
    exact ⟨rfl, rfl, rfl⟩
  · rw [← h1 g hg]
    exact State.rxFail_frame_other _ _ _ (by rw [h5]; exact hg)

/-- An operation that needs the header: what holds of both its ends holds of it (R121). -/
theorem State.needHeader_holds {s : State} {f : FrameSel} {k : Frame → State} {P : State → Prop}
    (h1 : 3 ≤ (s.frame f).wr.val → P (k (s.frame f))) (h2 : P (s.raise .headerMissing)) : P (s.needHeader f k) := by
  obtain ⟨h, e⟩ | ⟨_, e⟩ := s.needHeader_cases f k <;> rw [e]
  · exact h1 h
  · exact h2

/-- The same for the payload window (R150). -/
theorem State.payloadWindow_holds {s : State} {f : FrameSel} {k : Frame → Nat → State} {P : State → Prop}
    (h1 : 3 + (s.frame f).lengthField ≤ (s.frame f).wr.val → P (k (s.frame f) (s.frame f).lengthField))
    (h2 : P (s.raise .headerMissing)) (h3 : P (s.raise .lengthMismatch)) : P (s.payloadWindow f k) := by
  obtain ⟨h, e⟩ | ⟨_, e⟩ | ⟨_, _, e⟩ := s.payloadWindow_cases f k <;> rw [e]
  · exact h1 h
  · exact h2
  · exact h3

/-- The `length` field as arithmetic on byte 0 (R71). -/
theorem Frame.lengthField_eq (x : Frame) : x.lengthField = (x.byte 0).toNat % 64 := by
  simp [Frame.lengthField, lengthBits]

end Sys2Proof.Machine
end

