-- ==== Sys2Proof/Laws/PerInstr.lean ====
section
/-! SUPPORT. Made per instruction: the encoder writes a word of the instruction's row of spec/opcode_table.json, that is,
the bits that the row fixes stand as it fixes them. -/

namespace Sys2Proof.Laws.TableRow

/-- A command word with this `opsel`, with bits 15 to 8 below `2^sel` (1 for an operation with a frame, else 0) and bits
7 to 0 below `2^imm`. -/
def cmdRow (opsel sel imm : Nat) : Fetched → Prop
  | .command t => t.word.toNat / 65536 = opsel ∧ t.word.toNat / 256 % 256 < 2 ^ sel ∧ t.word.toNat % 256 < 2 ^ imm
  | .header _ => False

/-- A header word whose bits from `lo` on, `n` of them, are `v`. -/
def hdrRow (lo n v : Nat) : Fetched → Prop
  | .command _ => False
  | .header w => w.toNat / 2 ^ lo % 2 ^ n = v

theorem cmdRow_word {opsel sel imm : Nat} {o i : BitVec 8} {f : Bool} (d : List (BitVec 8)) (ho : o.toNat = opsel)
    (hf : f.toNat < 2 ^ sel) (hi : i.toNat < 2 ^ imm) : cmdRow opsel sel imm (.command ⟨commandWord o f i, d⟩) := by
  have h1 := i.isLt
  have h2 := f.toNat_lt
  refine ⟨?_, ?_, ?_⟩ <;> simp only [toNat_commandWord]
  · omega
  · rwa [show (o.toNat * 65536 + f.toNat * 256 + i.toNat) / 256 % 256 = f.toNat by omega]
  · rwa [show (o.toNat * 65536 + f.toNat * 256 + i.toNat) % 256 = i.toNat by omega]

theorem setWidth_lt {n : Nat} (v : BitVec n) : (v.setWidth 8).toNat < 2 ^ n := by
  rw [BitVec.toNat_setWidth]
  exact Nat.lt_of_le_of_lt (Nat.mod_le _ _) v.isLt

/-- The row of each instruction. -/
def Statement : Instr → Prop
  | .typeDataRaw h => hdrRow 8 3 0 (encode (.typeDataRaw h)) ∧ hdrRow 13 1 0 (encode (.typeDataRaw h))
  | .typeDataEnc h => hdrRow 8 3 0 (encode (.typeDataEnc h)) ∧ hdrRow 13 1 1 (encode (.typeDataEnc h))
  | .typeCommand enc h => hdrRow 8 3 1 (encode (.typeCommand enc h))
  | .typeAck enc h => hdrRow 8 3 2 (encode (.typeAck enc h))
  | .typeNotice enc h => hdrRow 8 3 3 (encode (.typeNotice enc h))
  | .typeReserved low enc h => hdrRow 10 1 1 (encode (.typeReserved low enc h))
  | .frmClear f => cmdRow 0x01 1 0 (encode (.frmClear f))
  | .frmPut f b => cmdRow 0x02 1 8 (encode (.frmPut f b))
  | .frmGet f => cmdRow 0x03 1 0 (encode (.frmGet f))
  | .frmResetLen f n => cmdRow 0x04 1 8 (encode (.frmResetLen f n))
  | .frmExtent f => cmdRow 0x05 1 0 (encode (.frmExtent f))
  | .frmLd f i => cmdRow 0x06 1 6 (encode (.frmLd f i))
  | .frmSt f i v => cmdRow 0x07 1 6 (encode (.frmSt f i v))
  | .frmMeta f => cmdRow 0x08 1 0 (encode (.frmMeta f))
  | .hdrReset f n => cmdRow 0x10 1 8 (encode (.hdrReset f n))
  | .hdrLen f => cmdRow 0x11 1 0 (encode (.hdrLen f))
  | .hdrType f => cmdRow 0x12 1 0 (encode (.hdrType f))
  | .hdrEnc f => cmdRow 0x13 1 0 (encode (.hdrEnc f))
  | .hdrFrag f => cmdRow 0x14 1 0 (encode (.hdrFrag f))
  | .hdrAckReq f => cmdRow 0x15 1 0 (encode (.hdrAckReq f))
  | .hdrId f => cmdRow 0x16 1 0 (encode (.hdrId f))
  | .hdrSetLen f v => cmdRow 0x17 1 8 (encode (.hdrSetLen f v))
  | .hdrSetType f t => cmdRow 0x18 1 3 (encode (.hdrSetType f t))
  | .hdrSetEnc f b => cmdRow 0x19 1 1 (encode (.hdrSetEnc f b))
  | .hdrSetFrag f b => cmdRow 0x1A 1 1 (encode (.hdrSetFrag f b))
  | .hdrSetAckReq f b => cmdRow 0x1B 1 1 (encode (.hdrSetAckReq f b))
  | .hdrSetId f v => cmdRow 0x1C 1 8 (encode (.hdrSetId f v))
  | .hdrUpdLen f => cmdRow 0x1D 1 0 (encode (.hdrUpdLen f))
  | .hdrDispatch f => cmdRow 0x1E 1 0 (encode (.hdrDispatch f))
  | .hdrPack f len flags type id => cmdRow 0x1F 1 0 (encode (.hdrPack f len flags type id))
  | .hdrUnpack f => cmdRow 0x20 1 0 (encode (.hdrUnpack f))
  | .datSetRaw f s => cmdRow 0x28 1 0 (encode (.datSetRaw f s))
  | .datSetEnc f s => cmdRow 0x29 1 0 (encode (.datSetEnc f s))
  | .datDecode f => cmdRow 0x2A 1 0 (encode (.datDecode f))
  | .datGet f => cmdRow 0x2B 1 0 (encode (.datGet f))
  | .cmdSetOp f op => cmdRow 0x30 1 8 (encode (.cmdSetOp f op))
  | .cmdGetOp f => cmdRow 0x31 1 0 (encode (.cmdGetOp f))
  | .cmdSetParam f s => cmdRow 0x32 1 0 (encode (.cmdSetParam f s))
  | .cmdGetParam f => cmdRow 0x33 1 0 (encode (.cmdGetParam f))
  | .ackSetOp f op => cmdRow 0x38 1 8 (encode (.ackSetOp f op))
  | .ackGetOp f => cmdRow 0x39 1 0 (encode (.ackGetOp f))
  | .ackSetResp f s => cmdRow 0x3A 1 0 (encode (.ackSetResp f s))
  | .ackGetResp f => cmdRow 0x3B 1 0 (encode (.ackGetResp f))
  | .ntcSet f s => cmdRow 0x40 1 0 (encode (.ntcSet f s))
  | .ntcGet f => cmdRow 0x41 1 0 (encode (.ntcGet f))
  | .expEnc s => cmdRow 0x48 0 0 (encode (.expEnc s))
  | .expDec s => cmdRow 0x49 0 0 (encode (.expDec s))
  | .sndSeq => cmdRow 0x50 0 0 (encode (.sndSeq))
  | .sndXmit f => cmdRow 0x51 1 0 (encode (.sndXmit f))
  | .sndData g e s => cmdRow 0x52 0 2 (encode (.sndData g e s))
  | .sndCmd op s => cmdRow 0x53 0 8 (encode (.sndCmd op s))
  | .sndCmdAck op s => cmdRow 0x54 0 8 (encode (.sndCmdAck op s))
  | .sndAck op s => cmdRow 0x55 0 8 (encode (.sndAck op s))
  | .sndNotice s => cmdRow 0x56 0 0 (encode (.sndNotice s))
  | .rcvListen f budget => cmdRow 0x60 1 0 (encode (.rcvListen f budget))

theorem word_header (type : BitVec 3) (enc : Bool) (h : HeaderFields) :
    (headerWord type enc h).toNat / 2 ^ 8 % 2 ^ 3 = type.toNat ∧ (headerWord type enc h).toNat / 2 ^ 10 % 2 ^ 1 =
      type.toNat / 4 ∧ (headerWord type enc h).toNat / 2 ^ 13 % 2 ^ 1 = enc.toNat := by
  have h1 := h.id.isLt
  have h2 := type.isLt
  have h3 := h.ackReq.toNat_lt
  have h4 := h.frag.toNat_lt
  have h5 := enc.toNat_lt
  have h6 := h.unused1.isLt
  rw [toNat_headerWord]
  refine ⟨?_, ?_, ?_⟩ <;> omega

theorem typeDataRaw (h : HeaderFields) : Statement (.typeDataRaw h) :=
  ⟨(word_header 0 false h).1, (word_header 0 false h).2.2⟩

theorem typeDataEnc (h : HeaderFields) : Statement (.typeDataEnc h) :=
  ⟨(word_header 0 true h).1, (word_header 0 true h).2.2⟩

theorem typeCommand (enc : Bool) (h : HeaderFields) : Statement (.typeCommand enc h) :=
  (word_header 1 enc h).1

theorem typeAck (enc : Bool) (h : HeaderFields) : Statement (.typeAck enc h) :=
  (word_header 2 enc h).1

theorem typeNotice (enc : Bool) (h : HeaderFields) : Statement (.typeNotice enc h) :=
  (word_header 3 enc h).1

theorem typeReserved (low : BitVec 2) (enc : Bool) (h : HeaderFields) : Statement (.typeReserved low enc h) := by
  have h1 := low.isLt
  refine (word_header ((1 : BitVec 1) ++ low) enc h).2.1.trans ?_
  rw [toNat_append_eq]
  simp only [BitVec.ofNat_eq_ofNat, BitVec.toNat_ofNat]
  omega

theorem frmClear (f : FrameSel) : Statement (.frmClear f) :=
  cmdRow_word _ rfl (Bool.toNat_lt _) (by decide)

theorem frmPut (f : FrameSel) (b : BitVec 8) : Statement (.frmPut f b) :=
  cmdRow_word _ rfl (Bool.toNat_lt _) (BitVec.isLt _)

theorem frmGet (f : FrameSel) : Statement (.frmGet f) :=
  cmdRow_word _ rfl (Bool.toNat_lt _) (by decide)

theorem frmResetLen (f : FrameSel) (n : BitVec 8) : Statement (.frmResetLen f n) :=
  cmdRow_word _ rfl (Bool.toNat_lt _) (BitVec.isLt _)

theorem frmExtent (f : FrameSel) : Statement (.frmExtent f) :=
  cmdRow_word _ rfl (Bool.toNat_lt _) (by decide)

theorem frmLd (f : FrameSel) (i : BitVec 6) : Statement (.frmLd f i) :=
  cmdRow_word _ rfl (Bool.toNat_lt _) (setWidth_lt _)

theorem frmSt (f : FrameSel) (i : BitVec 6) (v : BitVec 8) : Statement (.frmSt f i v) :=
  cmdRow_word _ rfl (Bool.toNat_lt _) (setWidth_lt _)

theorem frmMeta (f : FrameSel) : Statement (.frmMeta f) :=
  cmdRow_word _ rfl (Bool.toNat_lt _) (by decide)

theorem hdrReset (f : FrameSel) (n : BitVec 8) : Statement (.hdrReset f n) :=
  cmdRow_word _ rfl (Bool.toNat_lt _) (BitVec.isLt _)

theorem hdrLen (f : FrameSel) : Statement (.hdrLen f) :=
  cmdRow_word _ rfl (Bool.toNat_lt _) (by decide)

theorem hdrType (f : FrameSel) : Statement (.hdrType f) :=
  cmdRow_word _ rfl (Bool.toNat_lt _) (by decide)

theorem hdrEnc (f : FrameSel) : Statement (.hdrEnc f) :=
  cmdRow_word _ rfl (Bool.toNat_lt _) (by decide)

theorem hdrFrag (f : FrameSel) : Statement (.hdrFrag f) :=
  cmdRow_word _ rfl (Bool.toNat_lt _) (by decide)

theorem hdrAckReq (f : FrameSel) : Statement (.hdrAckReq f) :=
  cmdRow_word _ rfl (Bool.toNat_lt _) (by decide)

theorem hdrId (f : FrameSel) : Statement (.hdrId f) :=
  cmdRow_word _ rfl (Bool.toNat_lt _) (by decide)

theorem hdrSetLen (f : FrameSel) (v : BitVec 8) : Statement (.hdrSetLen f v) :=
  cmdRow_word _ rfl (Bool.toNat_lt _) (BitVec.isLt _)

theorem hdrSetType (f : FrameSel) (t : BitVec 3) : Statement (.hdrSetType f t) :=
  cmdRow_word _ rfl (Bool.toNat_lt _) (setWidth_lt _)

theorem hdrSetEnc (f : FrameSel) (b : Bool) : Statement (.hdrSetEnc f b) :=
  cmdRow_word _ rfl (Bool.toNat_lt _) (setWidth_lt _)

theorem hdrSetFrag (f : FrameSel) (b : Bool) : Statement (.hdrSetFrag f b) :=
  cmdRow_word _ rfl (Bool.toNat_lt _) (setWidth_lt _)

theorem hdrSetAckReq (f : FrameSel) (b : Bool) : Statement (.hdrSetAckReq f b) :=
  cmdRow_word _ rfl (Bool.toNat_lt _) (setWidth_lt _)

theorem hdrSetId (f : FrameSel) (v : BitVec 8) : Statement (.hdrSetId f v) :=
  cmdRow_word _ rfl (Bool.toNat_lt _) (BitVec.isLt _)

theorem hdrUpdLen (f : FrameSel) : Statement (.hdrUpdLen f) :=
  cmdRow_word _ rfl (Bool.toNat_lt _) (by decide)

theorem hdrDispatch (f : FrameSel) : Statement (.hdrDispatch f) :=
  cmdRow_word _ rfl (Bool.toNat_lt _) (by decide)

theorem hdrPack (f : FrameSel) (len flags type id : BitVec 8) : Statement (.hdrPack f len flags type id) :=
  cmdRow_word _ rfl (Bool.toNat_lt _) (by decide)

theorem hdrUnpack (f : FrameSel) : Statement (.hdrUnpack f) :=
  cmdRow_word _ rfl (Bool.toNat_lt _) (by decide)

theorem datSetRaw (f : FrameSel) (s : List (BitVec 8)) : Statement (.datSetRaw f s) :=
  cmdRow_word _ rfl (Bool.toNat_lt _) (by decide)

theorem datSetEnc (f : FrameSel) (s : List (BitVec 8)) : Statement (.datSetEnc f s) :=
  cmdRow_word _ rfl (Bool.toNat_lt _) (by decide)

theorem datDecode (f : FrameSel) : Statement (.datDecode f) :=
  cmdRow_word _ rfl (Bool.toNat_lt _) (by decide)

theorem datGet (f : FrameSel) : Statement (.datGet f) :=
  cmdRow_word _ rfl (Bool.toNat_lt _) (by decide)

theorem cmdSetOp (f : FrameSel) (op : BitVec 8) : Statement (.cmdSetOp f op) :=
  cmdRow_word _ rfl (Bool.toNat_lt _) (BitVec.isLt _)

theorem cmdGetOp (f : FrameSel) : Statement (.cmdGetOp f) :=
  cmdRow_word _ rfl (Bool.toNat_lt _) (by decide)

theorem cmdSetParam (f : FrameSel) (s : List (BitVec 8)) : Statement (.cmdSetParam f s) :=
  cmdRow_word _ rfl (Bool.toNat_lt _) (by decide)

theorem cmdGetParam (f : FrameSel) : Statement (.cmdGetParam f) :=
  cmdRow_word _ rfl (Bool.toNat_lt _) (by decide)

theorem ackSetOp (f : FrameSel) (op : BitVec 8) : Statement (.ackSetOp f op) :=
  cmdRow_word _ rfl (Bool.toNat_lt _) (BitVec.isLt _)

theorem ackGetOp (f : FrameSel) : Statement (.ackGetOp f) :=
  cmdRow_word _ rfl (Bool.toNat_lt _) (by decide)

theorem ackSetResp (f : FrameSel) (s : List (BitVec 8)) : Statement (.ackSetResp f s) :=
  cmdRow_word _ rfl (Bool.toNat_lt _) (by decide)

theorem ackGetResp (f : FrameSel) : Statement (.ackGetResp f) :=
  cmdRow_word _ rfl (Bool.toNat_lt _) (by decide)

theorem ntcSet (f : FrameSel) (s : List (BitVec 8)) : Statement (.ntcSet f s) :=
  cmdRow_word _ rfl (Bool.toNat_lt _) (by decide)

theorem ntcGet (f : FrameSel) : Statement (.ntcGet f) :=
  cmdRow_word _ rfl (Bool.toNat_lt _) (by decide)

theorem expEnc (s : List (BitVec 8)) : Statement (.expEnc s) :=
  cmdRow_word _ rfl (by decide) (by decide)

theorem expDec (s : List (BitVec 8)) : Statement (.expDec s) :=
  cmdRow_word _ rfl (by decide) (by decide)

theorem sndSeq : Statement (.sndSeq) :=
  cmdRow_word _ rfl (by decide) (by decide)

theorem sndXmit (f : FrameSel) : Statement (.sndXmit f) :=
  cmdRow_word _ rfl (Bool.toNat_lt _) (by decide)

theorem sndData (g e : Bool) (s : List (BitVec 8)) : Statement (.sndData g e s) :=
  cmdRow_word _ rfl (by decide) (setWidth_lt _)

theorem sndCmd (op : BitVec 8) (s : List (BitVec 8)) : Statement (.sndCmd op s) :=
  cmdRow_word _ rfl (by decide) (BitVec.isLt _)

theorem sndCmdAck (op : BitVec 8) (s : List (BitVec 8)) : Statement (.sndCmdAck op s) :=
  cmdRow_word _ rfl (by decide) (BitVec.isLt _)

theorem sndAck (op : BitVec 8) (s : List (BitVec 8)) : Statement (.sndAck op s) :=
  cmdRow_word _ rfl (by decide) (BitVec.isLt _)

theorem sndNotice (s : List (BitVec 8)) : Statement (.sndNotice s) :=
  cmdRow_word _ rfl (by decide) (by decide)

theorem rcvListen (f : FrameSel) (budget : BitVec 32) : Statement (.rcvListen f budget) :=
  cmdRow_word _ rfl (Bool.toNat_lt _) (by decide)

end Sys2Proof.Laws.TableRow
end

