-- ==== Sys2Proof/Laws/Reset.lean ====
section
/-! SUPPORT. Calls of T and of the tick input made one after another, and the state that a reset inside an operation
leaves. -/

namespace Sys2Proof.Machine

/-! ### What a reset leaves, field by field -/

@[simp] theorem State.resetPulse_f0 (s : State) : s.resetPulse.f0 = Frame.reset := rfl

@[simp] theorem State.resetPulse_f1 (s : State) : s.resetPulse.f1 = Frame.reset := rfl

@[simp] theorem State.resetPulse_txf (s : State) : s.resetPulse.txf = Frame.reset := rfl

@[simp] theorem State.resetPulse_seq (s : State) : s.resetPulse.seq = 0 := rfl

@[simp] theorem State.resetPulse_rxState (s : State) : s.resetPulse.rxState = .idle := rfl

@[simp] theorem State.resetPulse_listening (s : State) : s.resetPulse.listening = false := rfl

@[simp] theorem State.resetPulse_result (s : State) : s.resetPulse.result = none := rfl

@[simp] theorem State.resetPulse_host (s : State) : s.resetPulse.host = s.host := rfl

@[simp] theorem State.resetPulse_ticks (s : State) : s.resetPulse.ticks = s.ticks := rfl

@[simp] theorem State.resetPulse_rst (s : State) : s.resetPulse.rst = s.rst := rfl

@[simp] theorem State.resetPulse_t (s : State) : s.resetPulse.t = s.t := rfl

@[simp] theorem State.resetPulse_draws (s : State) : s.resetPulse.draws = s.draws := rfl

@[simp] theorem State.resetPulse_cfg (s : State) : s.resetPulse.cfg = s.cfg := rfl

@[simp] theorem State.resetPulse_inv (s : State) : s.resetPulse.inv = true := by
  simp [State.inv, Frame.ok, Frame.reset, Mem.wf, Mem.wfFrom]

/-! ### Calls in their order -/

@[simp] theorem State.performAll_nil (s : State) : s.performAll [] = s := rfl

@[simp] theorem State.performAll_cons (s : State) (c : Call) (l : List Call) :
    s.performAll (c :: l) = (s.perform c).performAll l := rfl

@[simp] theorem State.performAll_append (s : State) (l m : List Call) :
    s.performAll (l ++ m) = (s.performAll l).performAll m := by
  simp [State.performAll, List.foldl_append]

/-- A call changes nothing but T, the ticks and the count of draws. -/
theorem State.perform_spec (s : State) (c : Call) : ∃ t ticks draws, s.perform c =
    { s with t := t, ticks := ticks, draws := draws } := by
  cases c with
  | now => obtain ⟨_, _, h⟩ := s.now_spec; exact ⟨s.t, _, _, h⟩
  | avail => obtain ⟨_, _, _, h⟩ := s.arrive_spec; exact ⟨_, s.ticks, _, h⟩
  | byteTime => obtain ⟨_, _, h⟩ := s.byteTime_spec; exact ⟨_, s.ticks, _, h⟩
  | read => exact ⟨_, s.ticks, s.draws, rfl⟩
  | exec c => obtain ⟨_, _, h⟩ := s.execModule_spec c; exact ⟨_, s.ticks, _, h⟩
  | send b => obtain ⟨_, _, h⟩ := s.send_spec b; exact ⟨_, s.ticks, _, h⟩

theorem State.performAll_spec (l : List Call) : ∀ s : State, ∃ t ticks draws, s.performAll l =
    { s with t := t, ticks := ticks, draws := draws } := by
  induction l with
  | nil => exact fun s => ⟨s.t, s.ticks, s.draws, rfl⟩
  | cons c l ih =>
    intro s
    obtain ⟨_, _, _, h⟩ := s.perform_spec c
    obtain ⟨_, _, _, h'⟩ := ih (s.perform c)
    exact ⟨_, _, _, by rw [State.performAll_cons, h', h]⟩

/-- A call answers by T, the ticks and the count of draws alone. -/
theorem State.perform_sameInputs {s u : State} (h : s.sameInputs u) (c : Call) :
    (s.perform c).sameInputs (u.perform c) := by
  obtain ⟨h1, h2, h3⟩ := h
  cases c with
  | now =>
    simp only [State.perform, State.now, State.sameInputs, h2, h3]
    cases s.ticks <;> simp [h1]
  | avail =>
    simp only [State.perform, State.arrive, State.sameInputs, h1, h3]
    cases s.t.arrivals <;> simp [h2]
  | byteTime =>
    simp only [State.perform, State.byteTime, State.sameInputs, h1, h3]
    cases s.t.byteTimes <;> simp [h2]
  | read => exact ⟨by simp [State.perform, h1], h2, h3⟩
  | exec c =>
    simp only [State.perform, State.execModule, State.execAnswer, State.sameInputs, h1, h3]
    cases s.t.execAnswers <;> simp [h2]
  | send b =>
    simp only [State.perform, State.send, State.sendAnswer, State.sameInputs, h1, h3]
    cases s.t.sendAnswers <;> simp [h2]

theorem State.performAll_sameInputs (l : List Call) : ∀ {s u : State}, s.sameInputs u →
    (s.performAll l).sameInputs (u.performAll l) := by
  induction l with
  | nil => exact fun h => h
  | cons c l ih => exact fun h => ih (State.perform_sameInputs h c)

/-- Sends in a row: one string more for each, and the first `k` of them are the same whatever follows. -/
theorem State.performAll_send (bs : List (List (BitVec 8))) : ∀ s : State, ∃ l : List Sent,
    l.map Sent.bytes = bs ∧ ∀ k, (s.performAll ((bs.map Call.send).take k)).t.sent = s.t.sent ++ l.take k ∧
      (s.performAll ((bs.map Call.send).take k)).t.executed = s.t.executed := by
  induction bs with
  | nil => exact fun s => ⟨[], rfl, fun k => by simp⟩
  | cons b bs ih =>
    intro s
    obtain ⟨answers, draws, h⟩ := s.send_spec b
    obtain ⟨l, hl, hk⟩ := ih (s.perform (.send b))
    refine ⟨⟨b, (s.send b).1⟩ :: l, by simp [hl], fun k => ?_⟩
    cases k with
    | zero => simp
    | succ k =>
      have h1 : (s.perform (.send b)).t.sent = s.t.sent ++ [⟨b, (s.send b).1⟩] := by simp [State.perform, h]
      have h2 : (s.perform (.send b)).t.executed = s.t.executed := by simp [State.perform, h]
      simp [hk k, h1, h2]

/-- Reads in a row drop bytes from the front of what is pending. -/
theorem State.performAll_read (n : Nat) : ∀ s : State,
    s.performAll (List.replicate n .read) = s.leave (s.t.inbound.drop n) := by
  induction n with
  | zero => exact fun s => rfl
  | succ n ih =>
    intro s
    rw [List.replicate_succ, State.performAll_cons, ih]
    cases h : s.t.inbound <;> simp [State.perform, State.leave, h]

/-! ### A reset inside an operation -/

/-- What the cut leaves (R340, U18): the registers of reset, and T and the ticks after the calls made so far. -/
theorem State.cutShort_spec (s : State) (k : Nat) (t : State) : ∃ u : State,
    u = s.performAll ((s.callsTo t).take k) ∧ s.cutShort k t =
      { State.reset with
        host := t.host, ticks := u.ticks, rst := s.rst, t := u.t, draws := u.draws, cfg := s.cfg } := by
  obtain ⟨_, _, _, h⟩ := State.performAll_spec ((s.callsTo t).take k) s
  exact ⟨_, rfl, by simp only [State.cutShort, State.resetPulse, h]⟩

theorem State.cutShort_inv (s : State) (k : Nat) (t : State) : (s.cutShort k t).inv = true := by
  obtain ⟨_, _, h⟩ := s.cutShort_spec k t
  rw [h]
  exact State.resetPulse_inv s

end Sys2Proof.Machine
end

