-- ==== Sys2Proof/Tests/Slice0.lean ====
section
/-! SUPPORT. Small tests: ill-formed instructions, words written out from the encoding tables, one step of the rules' own
examples, and a witness for the hypotheses of each statement. -/

namespace Sys2Proof.Tests

open Sys2Proof.Machine

/-! ### Helpers -/

/-- A machine after reset with the OPEN parameters given a value for the test. -/
def base : State := { State.reset with cfg := ⟨.rawBinary, 0xF0⟩ }

/-- `F[0]` holding these bytes as its extent. -/
def holding (b : List (BitVec 8)) : Frame := (Frame.reset.store 0 b).resetLen b.length

/-- `base` with `F[0]` holding these bytes. -/
def framed (b : List (BitVec 8)) : State := { base with f0 := holding b }

/-- `base` with T about to answer these counts, and this `SEQ`. -/
def sender (q : BitVec 8) (a : List Nat) : State := { base with seq := q, t := { base.t with sendAnswers := a } }

/-- A listening receiver on `F[0]` in this state of the receiver, its frame holding `b`, `inb` pending, nothing more
arriving, a finite budget of 10 and a clock that stands at 0. -/
def listening (st : RxState) (b inb : List (BitVec 8)) : State :=
  { framed b with
    rxState := st
    listening := true
    rxBudget := 10
    ticks := [0]
    t := { base.t with inbound := inb, arrivals := [[]] } }

/-- The state after a step that goes on; the state before it otherwise. -/
def after (s : State) : Host.Outcome State Fault Refusal → State
  | .next t => t
  | _ => s

/-- What an instruction answers. -/
def answerOf (i : Instr) (s : State) : Option Result := (after s (exec i s)).result

/-- The extent of `F[0]` after an instruction. -/
def contentOf (i : Instr) (s : State) : List (BitVec 8) := (after s (exec i s)).f0.content

/-! ### Well-formedness -/

theorem test_string_limit : wellFormedString (List.replicate 65535 0) = true :=
  decide_eq_true (Nat.le_of_eq List.length_replicate)

theorem test_string_too_long : wellFormedString (List.replicate 65536 0) = false :=
  decide_eq_false (by rw [List.length_replicate]; exact Nat.not_succ_le_self 65535)

theorem test_ill_formed_datSetRaw : wellFormed (.datSetRaw .f0 (List.replicate 65536 0)) = false := test_string_too_long

theorem test_ill_formed_datSetEnc : wellFormed (.datSetEnc .f0 (List.replicate 65536 0)) = false := test_string_too_long

theorem test_ill_formed_cmdSetParam : wellFormed (.cmdSetParam .f0 (List.replicate 65536 0)) = false :=
  test_string_too_long

theorem test_ill_formed_ackSetResp : wellFormed (.ackSetResp .f0 (List.replicate 65536 0)) = false :=
  test_string_too_long

theorem test_ill_formed_ntcSet : wellFormed (.ntcSet .f0 (List.replicate 65536 0)) = false := test_string_too_long

theorem test_ill_formed_expEnc : wellFormed (.expEnc (List.replicate 65536 0)) = false := test_string_too_long

theorem test_ill_formed_expDec : wellFormed (.expDec (List.replicate 65536 0)) = false := test_string_too_long

theorem test_ill_formed_sndData : wellFormed (.sndData true true (List.replicate 65536 0)) = false :=
  test_string_too_long

theorem test_ill_formed_sndCmd : wellFormed (.sndCmd 1 (List.replicate 65536 0)) = false := test_string_too_long

theorem test_ill_formed_sndCmdAck : wellFormed (.sndCmdAck 1 (List.replicate 65536 0)) = false := test_string_too_long

theorem test_ill_formed_sndAck : wellFormed (.sndAck 1 (List.replicate 65536 0)) = false := test_string_too_long

theorem test_ill_formed_sndNotice : wellFormed (.sndNotice (List.replicate 65536 0)) = false := test_string_too_long

/-! ### Words written out from R74, R80, R89 to R91 -/

theorem test_decode_type :
    decode (.header 0x040005) = .ok (.typeDataRaw ⟨0, 4, 0, false, false, 5⟩) ∧
      decode (.header 0x042005) = .ok (.typeDataEnc ⟨0, 4, 0, false, false, 5⟩) ∧
      decode (.header 0x050910) = .ok (.typeCommand false ⟨0, 5, 0, false, true, 0x10⟩) ∧
      decode (.header 0x03020A) = .ok (.typeAck false ⟨0, 3, 0, false, false, 0x0A⟩) ∧
      decode (.header 0x3D3BFF) = .ok (.typeNotice true ⟨0, 0x3D, 0, true, true, 0xFF⟩) ∧
      decode (.header 0xFFFFFF) = .ok (.typeReserved 3 true ⟨3, 0x3F, 3, true, true, 0xFF⟩) := by decide

theorem test_decode_frm :
    decode (.command ⟨0x010100, []⟩) = .ok (.frmClear .f1) ∧
      decode (.command ⟨0x020041, []⟩) = .ok (.frmPut .f0 0x41) ∧
      decode (.command ⟨0x030000, []⟩) = .ok (.frmGet .f0) ∧
      decode (.command ⟨0x0400C8, []⟩) = .ok (.frmResetLen .f0 200) ∧
      decode (.command ⟨0x050100, []⟩) = .ok (.frmExtent .f1) ∧
      decode (.command ⟨0x06003F, []⟩) = .ok (.frmLd .f0 63) ∧
      decode (.command ⟨0x070002, [0x01, 0x00, 0x2A]⟩) = .ok (.frmSt .f0 2 0x2A) ∧
      decode (.command ⟨0x080100, []⟩) = .ok (.frmMeta .f1) := by decide

theorem test_decode_hdr_readers :
    decode (.command ⟨0x100005, []⟩) = .ok (.hdrReset .f0 5) ∧
      decode (.command ⟨0x110000, []⟩) = .ok (.hdrLen .f0) ∧
      decode (.command ⟨0x120100, []⟩) = .ok (.hdrType .f1) ∧
      decode (.command ⟨0x130000, []⟩) = .ok (.hdrEnc .f0) ∧
      decode (.command ⟨0x140000, []⟩) = .ok (.hdrFrag .f0) ∧
      decode (.command ⟨0x150000, []⟩) = .ok (.hdrAckReq .f0) ∧
      decode (.command ⟨0x160000, []⟩) = .ok (.hdrId .f0) ∧
      decode (.command ⟨0x1E0100, []⟩) = .ok (.hdrDispatch .f1) ∧
      decode (.command ⟨0x200000, []⟩) = .ok (.hdrUnpack .f0) := by decide

theorem test_decode_hdr_mutators :
    decode (.command ⟨0x170040, []⟩) = .ok (.hdrSetLen .f0 64) ∧
      decode (.command ⟨0x180005, []⟩) = .ok (.hdrSetType .f0 5) ∧
      decode (.command ⟨0x190101, []⟩) = .ok (.hdrSetEnc .f1 true) ∧
      decode (.command ⟨0x1A0000, []⟩) = .ok (.hdrSetFrag .f0 false) ∧
      decode (.command ⟨0x1B0001, []⟩) = .ok (.hdrSetAckReq .f0 true) ∧
      decode (.command ⟨0x1C0080, []⟩) = .ok (.hdrSetId .f0 0x80) ∧
      decode (.command ⟨0x1D0100, []⟩) = .ok (.hdrUpdLen .f1) ∧
      decode (.command ⟨0x1F0000, [0x04, 0x00, 0x3D, 0x07, 0x03, 0xFF]⟩) = .ok (.hdrPack .f0 0x3D 7 3 0xFF) := by
  decide

theorem test_decode_variants :
    decode (.command ⟨0x280000, [0x02, 0x00, 0xDE, 0xAD]⟩) = .ok (.datSetRaw .f0 [0xDE, 0xAD]) ∧
      decode (.command ⟨0x290100, [0x01, 0x00, 0x66]⟩) = .ok (.datSetEnc .f1 [0x66]) ∧
      decode (.command ⟨0x2A0000, []⟩) = .ok (.datDecode .f0) ∧
      decode (.command ⟨0x2B0000, []⟩) = .ok (.datGet .f0) ∧
      decode (.command ⟨0x300010, []⟩) = .ok (.cmdSetOp .f0 0x10) ∧
      decode (.command ⟨0x310000, []⟩) = .ok (.cmdGetOp .f0) ∧
      decode (.command ⟨0x320000, [0x00, 0x00]⟩) = .ok (.cmdSetParam .f0 []) ∧
      decode (.command ⟨0x330100, []⟩) = .ok (.cmdGetParam .f1) ∧
      decode (.command ⟨0x3801FF, []⟩) = .ok (.ackSetOp .f1 0xFF) ∧
      decode (.command ⟨0x390000, []⟩) = .ok (.ackGetOp .f0) ∧
      decode (.command ⟨0x3A0000, [0x02, 0x00, 0x4F, 0x4B]⟩) = .ok (.ackSetResp .f0 [0x4F, 0x4B]) ∧
      decode (.command ⟨0x3B0000, []⟩) = .ok (.ackGetResp .f0) ∧
      decode (.command ⟨0x400000, [0x02, 0x00, 0x48, 0x49]⟩) = .ok (.ntcSet .f0 [0x48, 0x49]) ∧
      decode (.command ⟨0x410100, []⟩) = .ok (.ntcGet .f1) := by decide

theorem test_decode_exp_snd_rcv :
    decode (.command ⟨0x480000, [0x01, 0x00, 0x66]⟩) = .ok (.expEnc [0x66]) ∧
      decode (.command ⟨0x490000, [0x00, 0x00]⟩) = .ok (.expDec []) ∧
      decode (.command ⟨0x500000, []⟩) = .ok .sndSeq ∧
      decode (.command ⟨0x510100, []⟩) = .ok (.sndXmit .f1) ∧
      decode (.command ⟨0x520001, [0x01, 0x00, 0x07]⟩) = .ok (.sndData true false [7]) ∧
      decode (.command ⟨0x520002, [0x01, 0x00, 0x07]⟩) = .ok (.sndData false true [7]) ∧
      decode (.command ⟨0x530010, [0x01, 0x00, 0x45]⟩) = .ok (.sndCmd 0x10 [0x45]) ∧
      decode (.command ⟨0x540010, [0x01, 0x00, 0x45]⟩) = .ok (.sndCmdAck 0x10 [0x45]) ∧
      decode (.command ⟨0x5500F0, [0x00, 0x00]⟩) = .ok (.sndAck 0xF0 []) ∧
      decode (.command ⟨0x560000, [0x01, 0x00, 0x48]⟩) = .ok (.sndNotice [0x48]) ∧
      decode (.command ⟨0x600000, [0xF4, 0x01, 0x00, 0x00]⟩) = .ok (.rcvListen .f0 500) := by decide

theorem test_rejected :
    decode (.command ⟨0x090000, []⟩) = .error (.unassignedOpsel 9) ∧
      decode (.command ⟨0x010200, []⟩) = .error .reservedBits ∧
      decode (.command ⟨0x500100, []⟩) = .error .frameSelect ∧
      decode (.command ⟨0x060040, []⟩) = .error .immediate ∧
      decode (.command ⟨0x010001, []⟩) = .error .immediate ∧
      decode (.command ⟨0x320000, [0x02, 0x00, 0x48]⟩) = .error .dataIn := by decide

theorem test_table_words :
    decodeTableWord 24 0x000000 = some (.typeDataRaw ⟨0, 0, 0, false, false, 0⟩) ∧
      decodeTableWord 24 0x000700 = some (.typeReserved 3 false ⟨0, 0, 0, false, false, 0⟩) ∧
      decodeTableWord 24 0x070000 = some (.frmSt .f0 0 0) ∧ decodeTableWord 24 0x600100 = some (.rcvListen .f1 0) := by
  decide

/-! ### One step of the rules' own examples -/

theorem test_reset_memory : Mem.wf State.reset.f0.buf = true ∧ Mem.wf State.reset.f1.buf = true ∧
    Mem.wf State.reset.txf.buf = true := by decide

theorem test_frmClear : (after base (exec (.frmClear .f0) (framed [1, 2, 3]))).f0 = Frame.reset := by decide

theorem test_frmPut : contentOf (.frmPut .f0 0x41) base = [0x41] ∧
    answerOf (.frmPut .f0 0x41) base = some ⟨.ok, .none, false, 1, []⟩ := by decide

theorem test_frmPut_full : answerOf (.frmPut .f0 0x41) { base with f0 := Frame.reset.resetLen 64 } =
    some ⟨.ok, .none, true, 0, []⟩ := by decide

theorem test_frmGet : answerOf (.frmGet .f0) (framed [5, 0, 7]) = some ⟨.ok, .none, false, 1, [5]⟩ ∧
    (after base (exec (.frmGet .f0) (framed [5, 0, 7]))).f0.rd = 1 := by decide

theorem test_frmResetLen : answerOf (.frmResetLen .f0 200) base = some ⟨.ok, .none, false, 64, []⟩ := by decide

theorem test_frmExtent : answerOf (.frmExtent .f0) (framed [1, 2, 3, 4, 5, 6, 7, 8]) =
    some ⟨.ok, .none, false, 8, [0]⟩ := by decide

theorem test_frmLd : answerOf (.frmLd .f0 1) (framed [5, 9]) = some ⟨.ok, .none, false, 9, []⟩ := by decide

theorem test_frmSt : (after base (exec (.frmSt .f0 2 0x2A) base)).f0.byte 2 = 0x2A := by decide

theorem test_frmMeta : answerOf (.frmMeta .f0)
    { base with f0 := { Frame.reset with node := 0x01, moduleId := 0x1A2B, sig := 0xC4 } } =
      some ⟨.ok, .none, false, 0x1A2B, [0x01, 0x1A, 0x2B, 0xC4]⟩ := by decide

theorem test_signal : ({ Frame.reset with sig := 0xC4 } : Frame).signal = -60 := by decide

theorem test_hdrReset : answerOf (.hdrReset .f0 5) base = some ⟨.ok, .none, false, 5, []⟩ ∧
    answerOf (.hdrReset .f0 62) base = some ⟨.ok, .none, true, 61, []⟩ := by decide

theorem test_hdrLen : answerOf (.hdrLen .f0) (framed [0xC5, 0, 0]) = some ⟨.ok, .none, false, 5, []⟩ := by decide

theorem test_hdrLen_missing : answerOf (.hdrLen .f0) (framed [0xC5, 0]) =
    some ⟨.protocolError, .headerMissing, false, 0, []⟩ := by decide

theorem test_hdrType : answerOf (.hdrType .f0) (framed [0, 0x3B, 0]) = some ⟨.ok, .none, false, 3, []⟩ := by decide

theorem test_hdrEnc : answerOf (.hdrEnc .f0) (framed [0, 0x20, 0]) = some ⟨.ok, .none, false, 1, []⟩ ∧
    answerOf (.hdrEnc .f0) (framed [0, 0x1F, 0]) = some ⟨.ok, .none, false, 0, []⟩ := by decide

theorem test_hdrFrag : answerOf (.hdrFrag .f0) (framed [0, 0x10, 0]) = some ⟨.ok, .none, false, 1, []⟩ ∧
    answerOf (.hdrFrag .f0) (framed [0, 0x2F, 0]) = some ⟨.ok, .none, false, 0, []⟩ := by decide

theorem test_hdrAckReq : answerOf (.hdrAckReq .f0) (framed [0, 0x09, 0]) = some ⟨.ok, .none, false, 1, []⟩ ∧
    answerOf (.hdrAckReq .f0) (framed [0, 0x37, 0]) = some ⟨.ok, .none, false, 0, []⟩ := by decide

theorem test_hdrId : answerOf (.hdrId .f0) (framed [0, 0, 0xFF]) = some ⟨.ok, .none, false, 255, []⟩ := by decide

theorem test_hdrSetLen : contentOf (.hdrSetLen .f0 63) (framed [1, 2, 3]) = [0x3F, 2, 3] ∧
    answerOf (.hdrSetLen .f0 64) (framed [1, 2, 3]) = some ⟨.protocolError, .lengthRange, false, 0, []⟩ := by decide

theorem test_hdrSetType : contentOf (.hdrSetType .f0 1) (framed [1, 0x2B, 3]) = [1, 0x29, 3] := by decide

theorem test_hdrSetEnc : contentOf (.hdrSetEnc .f0 true) (framed [1, 0, 3]) = [1, 0x20, 3] := by decide

theorem test_hdrSetFrag : contentOf (.hdrSetFrag .f0 false) (framed [1, 0x3B, 3]) = [1, 0x2B, 3] := by decide

theorem test_hdrSetAckReq : contentOf (.hdrSetAckReq .f0 true) (framed [1, 1, 3]) = [1, 9, 3] := by decide

theorem test_hdrSetId : contentOf (.hdrSetId .f0 0x80) (framed [1, 1, 3]) = [1, 1, 0x80] := by decide

theorem test_hdrUpdLen : contentOf (.hdrUpdLen .f0) (framed [0xFF, 1, 3, 4]) = [1, 1, 3, 4] := by decide

theorem test_hdrDispatch : answerOf (.hdrDispatch .f0) (framed [0, 0x0A, 0]) = some ⟨.ok, .none, false, 2, []⟩ ∧
    answerOf (.hdrDispatch .f0) (framed [0, 0x05, 0]) = some ⟨.protocolError, .unknownPacketType, false, 0, []⟩ := by
  decide

theorem test_hdrPack : contentOf (.hdrPack .f0 0x3D 7 3 0xFF) (framed [0, 0, 0]) = [0x3D, 0x3B, 0xFF] := by decide

theorem test_hdrUnpack : answerOf (.hdrUnpack .f0) (framed [0x3D, 0x3B, 0xFF]) =
    some ⟨.ok, .none, false, 0x3D, [0x3D, 7, 3, 0xFF]⟩ := by decide

theorem test_datSetRaw : contentOf (.datSetRaw .f0 [0xDE, 0xAD, 0xBE, 0xEF]) base =
    [4, 0, 0, 0xDE, 0xAD, 0xBE, 0xEF] := by decide

theorem test_datSetEnc : contentOf (.datSetEnc .f0 [0x66, 0x6F, 0x6F]) base =
    [4, 0x20, 0, 0x5A, 0x6D, 0x39, 0x76] := by decide

theorem test_datDecode : contentOf (.datDecode .f0) (framed [4, 0x20, 0, 0x5A, 0x6D, 0x39, 0x76]) =
    [3, 0, 0, 0x66, 0x6F, 0x6F] := by decide

theorem test_datGet : answerOf (.datGet .f0) (framed [4, 0, 0, 0xDE, 0xAD, 0xBE, 0xEF]) =
    some ⟨.ok, .none, false, 4, [0xDE, 0xAD, 0xBE, 0xEF]⟩ := by decide

theorem test_cmdSetOp : contentOf (.cmdSetOp .f0 0x10) (framed [0, 1, 0]) = [1, 1, 0, 0x10] := by decide

theorem test_cmdGetOp : answerOf (.cmdGetOp .f0) (framed [1, 1, 0, 0x10]) = some ⟨.ok, .none, false, 0x10, []⟩ ∧
    answerOf (.cmdGetOp .f0) (framed [0, 1, 0, 0x10]) = some ⟨.protocolError, .emptyPayload, false, 0, []⟩ := by decide

theorem test_cmdSetParam : contentOf (.cmdSetParam .f0 [0x45, 0x43]) (framed [1, 1, 0, 0x10]) =
    [3, 1, 0, 0x10, 0x45, 0x43] := by decide

theorem test_cmdGetParam : answerOf (.cmdGetParam .f0) (framed [3, 1, 0, 0x10, 0x45, 0x43]) =
    some ⟨.ok, .none, false, 2, [0x45, 0x43, 0]⟩ := by decide

theorem test_ackSetOp : contentOf (.ackSetOp .f0 0x10) (framed [0, 2, 0]) = [1, 2, 0, 0x10] := by decide

theorem test_ackGetOp : answerOf (.ackGetOp .f0) (framed [1, 2, 0, 0x10]) = some ⟨.ok, .none, false, 0x10, []⟩ := by
  decide

theorem test_ackSetResp : contentOf (.ackSetResp .f0 [0x4F, 0x4B]) (framed [1, 2, 0, 0x10]) =
    [3, 2, 0, 0x10, 0x4F, 0x4B] := by decide

theorem test_ackGetResp : answerOf (.ackGetResp .f0) (framed [3, 2, 0, 0x10, 0x4F, 0x4B]) =
    some ⟨.ok, .none, false, 2, [0x4F, 0x4B, 0]⟩ := by decide

theorem test_ntcSet : contentOf (.ntcSet .f0 [0x48, 0x49]) (framed [0, 3, 0]) = [2, 3, 0, 0x48, 0x49] := by decide

theorem test_ntcGet : answerOf (.ntcGet .f0) (framed [2, 3, 0, 0x48, 0x49]) =
    some ⟨.ok, .none, false, 2, [0x48, 0x49, 0]⟩ := by decide

theorem test_ntcGet_mismatch : answerOf (.ntcGet .f0) (framed [3, 3, 0, 0x48, 0x49]) =
    some ⟨.protocolError, .lengthMismatch, false, 0, []⟩ := by decide

theorem test_expEnc : answerOf (.expEnc [0x66, 0x6F, 0x6F, 0x62, 0x61, 0x72]) base =
    some ⟨.ok, .none, false, 6, [0x5A, 0x6D, 0x39, 0x76, 0x59, 0x6D, 0x46, 0x79]⟩ := by decide

theorem test_expDec : answerOf (.expDec [0x5A, 0x6D, 0x38, 0x3D]) base =
    some ⟨.ok, .none, false, 2, [0x66, 0x6F]⟩ ∧
      answerOf (.expDec [0x61, 0x3D, 0x62, 0x3D]) base = some ⟨.protocolError, .badEncoding, false, 0, []⟩ := by decide

theorem test_sndSeq : answerOf .sndSeq (sender 255 []) = some ⟨.ok, .none, false, 255, []⟩ ∧
    (after base (exec .sndSeq (sender 255 []))).seq = 0 := by decide

theorem test_sndXmit : (after base (exec (.sndXmit .f0)
    { framed [5, 1, 0, 0x10, 0x45, 0x43, 0x49, 0x4F] with seq := 7, t := { base.t with sendAnswers := [8] } })).t.sent =
      [⟨[5, 1, 7, 0x10, 0x45, 0x43, 0x49, 0x4F], 8⟩] := by decide

theorem test_sndXmit_mismatch : answerOf (.sndXmit .f0)
    { framed [5, 1, 0, 0x10, 0x45, 0x43, 0x49, 0x4F] with t := { base.t with sendAnswers := [3] } } =
      some ⟨.transportError, .sendMismatch, false, 3, []⟩ := by decide

theorem test_sndData : (after base (exec (.sndData true true [0x66]) (sender 9 [7]))).t.sent =
    [⟨[4, 0x30, 9, 0x5A, 0x67, 0x3D, 0x3D], 7⟩] := by decide

theorem test_sndData_empty : exec (.sndData true true []) (sender 9 [7]) = .next ((sender 9 [7]).answer 0) := rfl

theorem test_sndCmd : (after base (exec (.sndCmd 0x10 [0x45, 0x43, 0x49, 0x4F]) (sender 3 [8]))).t.sent =
    [⟨[5, 1, 3, 0x10, 0x45, 0x43, 0x49, 0x4F], 8⟩] := by decide

/-- Nothing was cut, so `trunc` is 0 (R29). -/
theorem test_sndCmd_mismatch : answerOf (.sndCmd 0x10 [0x45, 0x43]) (sender 3 [5]) =
    some ⟨.transportError, .sendMismatch, false, 2, []⟩ := by decide

/-- The string was cut and the frame not accepted whole: `trunc` is 1 (R29) and `val` the effective length (R301). -/
theorem test_sndNotice_cut_mismatch : answerOf (.sndNotice (List.replicate 62 0x41)) (sender 0 [5]) =
    some ⟨.transportError, .sendMismatch, true, 61, []⟩ := by decide

theorem test_sndCmdAck : (after base (exec (.sndCmdAck 0x10 [0x45, 0x43, 0x49, 0x4F]) (sender 3 [8]))).t.sent =
    [⟨[5, 9, 3, 0x10, 0x45, 0x43, 0x49, 0x4F], 8⟩] := by decide

theorem test_sndAck : (after base (exec (.sndAck 0x10 [0x4F, 0x4B]) (sender 9 [6]))).t.sent =
    [⟨[3, 2, 9, 0x10, 0x4F, 0x4B], 6⟩] := by decide

theorem test_sndNotice : (after base (exec (.sndNotice [0x48, 0x49]) (sender 0 [5]))).t.sent =
    [⟨[2, 3, 0, 0x48, 0x49], 5⟩] := by decide

theorem test_rcvListen : (after base (exec (.rcvListen .f0 500) { framed [1, 2, 3] with ticks := [77] })) =
    { base with rxLast := 77, rxBudget := 500, listening := true } := by decide

theorem test_typeNotice : answerOf (.typeNotice false ⟨0, 1, 0, false, false, 0⟩) (listening .done [1, 3, 0, 9] []) =
    some ⟨.ok, .none, false, 3, []⟩ := by decide

theorem test_typeCommand_intercept : (after base (exec (.typeCommand false ⟨0, 3, 0, false, true, 0⟩)
    { listening .done [3, 9, 0, 0xF0, 0x52, 0x44] [] with
      seq := 5, t := { base.t with execAnswers := [some [0x4F, 0x4B]], sendAnswers := [6] } })).t.sent =
      [⟨[3, 2, 5, 0xF0, 0x4F, 0x4B], 6⟩] := by decide

/-- The Ack is not accepted whole: `val` is the effective length of the response (R301). -/
theorem test_typeCommand_mismatch : answerOf (.typeCommand false ⟨0, 3, 0, false, true, 0⟩)
    { listening .done [3, 9, 0, 0xF0, 0x52, 0x44] [] with
      seq := 5, t := { base.t with execAnswers := [some [0x4F, 0x4B]], sendAnswers := [2] } } =
      some ⟨.transportError, .sendMismatch, false, 2, []⟩ := by decide

theorem test_typeReserved : answerOf (.typeReserved 1 false ⟨0, 1, 0, false, false, 0⟩) (listening .done [1, 5, 0, 9] []) =
    some ⟨.protocolError, .unknownPacketType, false, 0, []⟩ := by decide

/-! ### Witnesses for the hypotheses of the statements -/

theorem witness_DecodeOfEncode : wellFormed (.ntcSet .f0 (List.replicate 65535 0)) = true := test_string_limit

theorem witness_EncodeOfDecode :
    decode (.command ⟨0x06013F, []⟩) = .ok (.frmLd .f1 63) := by decide

/-- Words on both sides of every clause: an opsel inside a gap of the table, one behind it, a reserved bit, a frame select
bit, an `imm8` where none is taken, the first out of range and the last in range, and data-in of the wrong form. -/
theorem witness_NotAcceptedWords :
    [(⟨0x090000, []⟩ : Transaction), ⟨0x610000, []⟩, ⟨0x010200, []⟩, ⟨0x500100, []⟩, ⟨0x010001, []⟩, ⟨0x060040, []⟩,
        ⟨0x190002, []⟩, ⟨0x070000, [2, 0, 1, 1]⟩, ⟨0x280000, [2, 0, 1]⟩, ⟨0x600000, [1, 2, 3]⟩, ⟨0x010000, [0]⟩].map
          isOperation = List.replicate 11 false ∧
      [(⟨0x080100, []⟩ : Transaction), ⟨0x06003F, []⟩, ⟨0x190001, []⟩, ⟨0x070000, [1, 0, 1]⟩, ⟨0x280000, [1, 0, 1]⟩,
        ⟨0x1F0000, [4, 0, 1, 2, 3, 4]⟩, ⟨0x600100, [1, 2, 3, 4]⟩].map isOperation = List.replicate 7 true := by decide

theorem witness_NotAcceptedWords_step : decode (.command ⟨0x090000, []⟩) = .error (.unassignedOpsel 9) ∧
    base.sampleRst.1 = .released ∧ base.listening = false ∧
    ({ base with host := [⟨0x090000, []⟩] } : State).host = ⟨0x090000, []⟩ :: [] := by decide

theorem witness_StepRunsDecoded :
    (base.sampleRst.1 = .released ∧ base.listening = false ∧ base.host = []) ∧
      decode (.command ⟨0x010000, []⟩) = .ok (.frmClear .f0) ∧
      (listening .done [1, 3, 0, 9] []).listening = true ∧ (listening .done [1, 3, 0, 9] []).rxState = .done ∧
      decode (.header (holding [1, 3, 0, 9]).headerWord) = .ok (.typeNotice false ⟨0, 1, 0, false, false, 0⟩) := by
  decide

theorem witness_StepKeepsInvariant : base.inv = true ∧ step base = .next base := ⟨by decide, rfl⟩

theorem witness_StepKeepsInvariant_done : (listening .done [1, 3, 0, 9] []).inv = true ∧
    (listening .rxPayload [61, 3, 0] []).inv = true ∧ (listening .rxHeader [1, 3] []).inv = true ∧
    (listening .idle [] []).inv = true := by decide

theorem witness_ResetPulse : ({ base with rst := [.asserted] } : State).rst = .asserted :: [] := rfl

/-- `SND.CMD 0x10, "E"` on the command port while a reset strikes after `k` calls. -/
def cutSend (k : Nat) : State :=
  { sender 3 [5] with host := [⟨0x530010, [1, 0, 0x45]⟩], rst := [.during k], result := none }

/-- Before the call nothing has gone out, after it the frame has (U18). -/
theorem test_reset_inside_send :
    (after base (step (cutSend 0))).t.sent = [] ∧
      (after base (step (cutSend 1))).t.sent = [⟨[2, 1, 3, 0x10, 0x45], 5⟩] ∧
      (after base (step (cutSend 1))).seq = 0 ∧ (after base (step (cutSend 1))).result = none ∧
      (after base (step (cutSend 1))).host = [] := by decide

theorem witness_ResetDuringOperation : (cutSend 1).rst = .during 1 :: [] ∧
    (cutSend 1).sampleRst.2.run = .next (after base (cutSend 1).sampleRst.2.run) ∧ (cutSend 1).listening = false :=
  ⟨rfl, rfl, rfl⟩

theorem witness_ResetDuringOperation_receiving :
    let s := { listening .done [1, 3, 0, 9] [] with rst := [Rst.during 0] }
    let u := { listening .rxNode [] [0x30, 0x31, 0x2C] with rst := [Rst.during 3] }
    s.listening = true ∧ s.rxState = .done ∧ s.sampleRst.2.run = .next (after base s.sampleRst.2.run) ∧
      u.listening = true ∧ u.rxState ≠ .done ∧ u.sampleRst.2.run = .next (after base u.sampleRst.2.run) ∧
      u.sampleRst.2.callsTo (after base u.sampleRst.2.run) = [.now, .avail, .read, .read, .read] :=
  ⟨rfl, rfl, rfl, rfl, by decide, rfl, by decide⟩

theorem witness_FrameOps : isFrameOp (.expDec []) = true ∧ isFrameOp (.frmClear .f0) = true := by decide

theorem witness_ErrorsChangeNothing : isFrameOp (.hdrLen .f0) = true ∧
    exec (.hdrLen .f0) base = .next (base.raise .headerMissing) ∧ (errorResult .headerMissing 0).status ≠ .ok :=
  ⟨by decide, rfl, by decide⟩

theorem witness_MetadataSetOnlyByReceiver : base.sampleRst.1 = .released ∧ step base = .next base := ⟨by decide, rfl⟩

theorem witness_SequenceProperty : (sender 255 [6]).inv = true ∧ Instr.sndAck 0x10 [0x4F, 0x4B] ≠ .sndSeq ∧
    exec (.sndAck 0x10 [0x4F, 0x4B]) (sender 255 [6]) =
      .next (after base (exec (.sndAck 0x10 [0x4F, 0x4B]) (sender 255 [6]))) := ⟨by decide, by decide, rfl⟩

theorem witness_FrmPut : (Frame.reset.resetLen 63).ok = true ∧ (Frame.reset.resetLen 63).wr.val < 64 ∧
    (Frame.reset.resetLen 64).ok = true ∧ (Frame.reset.resetLen 64).wr.val = 64 := by decide

theorem witness_ok_frame : (holding [4, 0, 0, 0xDE, 0xAD, 0xBE, 0xEF]).ok = true ∧ (holding []).ok = true ∧
    (holding [0, 0, 0]).ok = true ∧ (holding [0, 0, 0]).wr.val = 3 := by decide

theorem witness_MutatorsNeedHeader : ((framed [1, 2]).frame .f0).wr.val < 3 := by decide

theorem witness_HdrSetLen : (holding [1, 2, 3]).ok = true ∧ 3 ≤ (holding [1, 2, 3]).wr.val ∧
    (63 : BitVec 8).toNat ≤ 63 ∧ ¬ (64 : BitVec 8).toNat ≤ 63 := by decide

theorem witness_PackThenUnpack : (holding [1, 2, 3]).ok = true ∧ 3 ≤ (holding [1, 2, 3]).wr.val ∧
    (63 : BitVec 8).toNat ≤ 63 ∧ (7 : BitVec 8).toNat ≤ 7 := by decide

theorem witness_SetThenGet : (holding []).ok = true ∧ (List.replicate 61 (0 : BitVec 8)).length ≤ 61 := by decide

theorem witness_EncodedDataRoundTrip : (holding []).ok = true ∧ (List.replicate 45 (0 : BitVec 8)).length ≤ 45 := by
  decide

theorem witness_DatDecode : (holding [4, 0x20, 0, 0x5A, 0x6D, 0x39, 0x76]).ok = true ∧
    expDecode ((holding [4, 0x20, 0, 0x5A, 0x6D, 0x39, 0x76]).bytes 3 4) = some [0x66, 0x6F, 0x6F] := by decide

/-- A frame for each failing case of `DAT.DECODE`: no header, a payload past the extent, `ENC` clear, no such text. -/
theorem witness_DatDecode_failing : (holding [1, 2]).ok = true ∧ (holding [1, 2]).wr.val < 3 ∧
    (holding [4, 0x20, 0]).ok = true ∧ (holding [4, 0x20, 0]).wr.val < 3 + ((holding [4, 0x20, 0]).byte 0).toNat % 64 ∧
    (holding [4, 0x20, 0]).byte 1 &&& 0x20 ≠ 0 ∧ (holding [0, 0, 0]).byte 1 &&& 0x20 = 0 ∧
    (holding [1, 0x20, 0, 0x3D]).ok = true ∧ expDecode ((holding [1, 0x20, 0, 0x3D]).bytes 3 1) = none := by decide

theorem witness_NtcSet : (holding [0, 3, 0]).ok = true ∧ ([] : List (BitVec 8)).length ≤ 61 ∧
    61 < (List.replicate 62 (0 : BitVec 8)).length := by decide

theorem witness_SetOpcode : (holding [0, 0, 0]).ok = true ∧
    (Instr.ackSetOp .f0 9 = .cmdSetOp .f0 9 ∨ Instr.ackSetOp .f0 9 = .ackSetOp .f0 9) ∧
    (Instr.cmdSetOp .f0 9 = .cmdSetOp .f0 9 ∨ Instr.cmdSetOp .f0 9 = .ackSetOp .f0 9) := by decide

theorem witness_SetString : (holding [0, 0, 0]).ok = true ∧
    (Instr.ackSetResp .f0 [9] = .cmdSetParam .f0 [9] ∨ Instr.ackSetResp .f0 [9] = .ackSetResp .f0 [9]) ∧
    (Instr.cmdSetParam .f0 [9] = .cmdSetParam .f0 [9] ∨ Instr.cmdSetParam .f0 [9] = .ackSetResp .f0 [9]) := by decide

theorem witness_CodecText : expDecode [0x5A, 0x6D, 0x38, 0x3D] = some [0x66, 0x6F] ∧
    (List.replicate 45 (0 : BitVec 8)).length ≤ 45 := by decide

theorem witness_SndXmit : ((framed [0, 0, 0]).frame .f0).ok = true ∧ 3 ≤ ((framed [0, 0, 0]).frame .f0).wr.val := by
  decide

theorem witness_Fragmentation : ∀ j, j < fragmentCount false (List.replicate 62 (7 : BitVec 8)).length →
    (sender 9 [64, 4]).t.sendAnswers[j]? =
      some (fragmentBytes true false 9 (List.replicate 62 7) j).length := by decide

theorem witness_Fragmentation_encoded : ∀ j, j < fragmentCount true (List.replicate 46 (7 : BitVec 8)).length →
    (sender 9 [63, 7]).t.sendAnswers[j]? =
      some (fragmentBytes false true 9 (List.replicate 46 7) j).length := by decide

theorem witness_TimeoutEndsListen :
    ({ listening .rxNode [] [0x30, 0x31, 0x2C] with ticks := [10] } : State).iterates ∧
      ({ listening .rxNode [] [0x30, 0x31, 0x2C] with ticks := [10] } : State).outOfTime = true :=
  ⟨⟨by decide, by decide, by decide⟩, by decide⟩

theorem witness_IdleAndExtension :
    (∀ inb, (listening .idle [] inb).iterates ∧ (listening .idle [] inb).rxState = .idle) ∧
      (listening .idle [] []).outOfTime = false ∧ (listening .idle [] []).available = [] ∧
      (listening .idle [] [1]).outOfTime = false ∧ (listening .idle [] [1]).available = [1] ∧
      (listening .idle [] [1]).rxUnbounded = false ∧ (listening .idle [] [1]).rxExtended = false :=
  ⟨fun _ => ⟨⟨rfl, rfl, by simp [listening]⟩, rfl⟩, by decide, by decide, by decide, by decide, by decide, by decide⟩

theorem witness_MetadataStates :
    (∀ st inb, st ≠ .done → (listening st [] inb).iterates ∧ (listening st [] inb).rxState = st) ∧
      (listening .rxNode [] []).outOfTime = false ∧
      (listening .rxNode [] [0x30, 0x31]).available.length < 3 ∧
      (listening .rxNode [] [0x30, 0x31, 0x2C]).available = 0x30 :: 0x31 :: 0x2C :: [] ∧
      hex2 0x30 0x31 = some 1 ∧ hex2 0x30 0x47 = none ∧
      (listening .rxModule [] [0x30, 0x31, 0x41, 0x46]).available.length < 5 ∧
      (listening .rxModule [] [0x30, 0x31, 0x41, 0x46, 0]).available = 0x30 :: 0x31 :: 0x41 :: 0x46 :: 0 :: [] ∧
      hex4 0x30 0x31 0x41 0x66 = some 0x01AF ∧ hex4 0x30 0x31 0x41 0x47 = none ∧
      (listening .rxSignal [] [0x30, 0x31]).available.length < 3 ∧
      (listening .rxSignal [] [0x30, 0x31, 0x3A]).available = 0x30 :: 0x31 :: 0x3A :: [] :=
  ⟨fun _ _ h => ⟨⟨rfl, rfl, h⟩, rfl⟩, by decide, by decide, by decide, by decide, by decide, by decide, by decide,
    by decide, by decide, by decide, by decide⟩

theorem witness_FrameBytes :
    (listening .rxHeader [1, 3] [9]).iterates ∧ (listening .rxHeader [1, 3] [9]).outOfTime = false ∧
      ((listening .rxHeader [1, 3] [9]).frame .f0).ok = true ∧
      ((listening .rxHeader [1, 3] [9]).frame .f0).wr.val = 2 ∧
      fetchFrameByte .rawBinary 2 (listening .rxHeader [1, 3] [9]).available = some (some 9, []) ∧
      fetchFrameByte .rawBinary 2 (listening .rxHeader [1, 3] []).available = none ∧
      fetchFrameByte .asciiHex 2 [0x2C, 0x30, 0x47] = some (none, []) :=
  ⟨⟨by decide, by decide, by decide⟩, by decide, by decide, by decide, by decide, by decide, by decide⟩

theorem witness_FrameBytes_payload :
    (listening .rxPayload [1, 3, 0] [9]).iterates ∧ (listening .rxPayload [1, 3, 0] [9]).outOfTime = false ∧
      ((listening .rxPayload [1, 3, 0] [9]).frame .f0).ok = true ∧
      1 ≤ ((listening .rxPayload [1, 3, 0] [9]).f0.byte 0).toNat % 64 ∧
      ((listening .rxPayload [61, 3, 0] [9]).f0.byte 0).toNat % 64 ≤ 61 ∧
      (listening .rxPayload [1, 3, 0] [9]).f0.wr.val < 3 + 1 :=
  ⟨⟨by decide, by decide, by decide⟩, by decide, by decide, by decide, by decide, by decide⟩

theorem witness_Terminator :
    (listening .rxPayload [1, 3, 0, 7] [13, 10]).iterates ∧
      (listening .rxPayload [1, 3, 0, 7] [13, 10]).outOfTime = false ∧
      1 ≤ ((listening .rxPayload [1, 3, 0, 7] [13, 10]).f0.byte 0).toNat % 64 ∧
      3 + ((listening .rxPayload [1, 3, 0, 7] [13, 10]).f0.byte 0).toNat % 64 ≤
        (listening .rxPayload [1, 3, 0, 7] [13, 10]).f0.wr.val ∧
      ¬ (listening .rxPayload [1, 3, 0, 7] [13, 10]).available.length < 2 ∧
      (listening .rxPayload [1, 3, 0, 7] [13]).available.length < 2 :=
  ⟨⟨by decide, by decide, by decide⟩, by decide, by decide, by decide, by decide, by decide⟩

theorem witness_LengthTest :
    (∀ b, (listening .rxPayload b []).iterates ∧ (listening .rxPayload b []).rxState = .rxPayload) ∧
      (listening .rxPayload [0xC0, 3, 0] []).outOfTime = false ∧
      ((listening .rxPayload [0xC0, 3, 0] []).f0.byte 0).toNat % 64 = 0 ∧
      61 < ((listening .rxPayload [62, 3, 0] []).f0.byte 0).toNat % 64 :=
  ⟨fun _ => ⟨⟨rfl, rfl, by simp [listening]⟩, rfl⟩, by decide, by decide, by decide⟩

theorem witness_CompletedFrames : (listening .done [1, 1, 0, 9] []).f0.byte 3 ≠ (listening .done [1, 1, 0, 9] []).cfg.opcExec :=
  by decide

theorem witness_Intercept :
    (listening .done [1, 1, 0, 0xF0] []).f0.byte 3 = (listening .done [1, 1, 0, 0xF0] []).cfg.opcExec ∧
      (61 : BitVec 6).toNat ≤ 61 ∧ 61 < (62 : BitVec 6).toNat := by decide

/-- A state for each answer of `T.exec`: failure, a response of 61 bytes (which the Ack cuts) with an Ack asked for that T
does not accept whole, and a response without an Ack asked for. -/
theorem witness_Intercept_answers :
    let fails := { listening .done [1, 1, 0, 0xF0] [] with t := { base.t with execAnswers := [none] } }
    let cut := { listening .done [1, 9, 0, 0xF0] [] with
      t := { base.t with execAnswers := [some (List.replicate 61 0x41)], sendAnswers := [5] } }
    let silent := { listening .done [1, 1, 0, 0xF0] [] with t := { base.t with execAnswers := [some []] } }
    (∀ s ∈ [fails, cut, silent], (s.frame s.rxFrame).byte 3 = s.cfg.opcExec) ∧
      answerOf (.typeCommand false ⟨0, 1, 0, false, false, 0⟩) fails =
        some ⟨.transportError, .execFailed, false, 0, []⟩ ∧
      answerOf (.typeCommand false ⟨0, 1, 0, false, true, 0⟩) cut =
        some ⟨.transportError, .sendMismatch, false, 60, []⟩ ∧
      answerOf (.typeCommand false ⟨0, 1, 0, false, false, 0⟩) silent = none := by decide

theorem witness_ReceivesWireText :
    let s := { listening .idle [] (wireText .rawBinary 1 0x1A2B 0xC4 ([1, 3, 7] ++ [0x48])) with rxUnbounded := true }
    s.rst = [] ∧ s.listening = true ∧ s.rxState = .idle ∧ s.rxUnbounded = true ∧
      (s.frame s.rxFrame).isClear = true ∧ (1 : BitVec 8).toNat % 64 = [(0x48 : BitVec 8)].length ∧
      (3 : BitVec 8).toNat % 8 ≤ 3 ∧
      s.t.inbound = wireText s.cfg.profile 1 0x1A2B 0xC4 ([1, 3, 7] ++ [0x48]) ++ [] := by decide

theorem witness_ReceivesWireText_hex :
    let s := { listening .idle [] (wireText .asciiHex 1 0x1A2B 0xC4 ([1, 3, 7] ++ [0x48])) with
      rxUnbounded := true, cfg := ⟨.asciiHex, 0xF0⟩ }
    s.rst = [] ∧ s.listening = true ∧ s.rxState = .idle ∧ s.rxUnbounded = true ∧
      (s.frame s.rxFrame).isClear = true ∧ (1 : BitVec 8).toNat % 64 = [(0x48 : BitVec 8)].length ∧
      (3 : BitVec 8).toNat % 8 ≤ 3 ∧
      s.t.inbound = wireText s.cfg.profile 1 0x1A2B 0xC4 ([1, 3, 7] ++ [0x48]) ++ [] := by decide

theorem test_wireText : wireText .asciiHex 1 0x1A2B 0xC4 [1, 3, 0xAF] =
    [0x30, 0x31, 0x2C, 0x31, 0x41, 0x32, 0x42, 0x2C, 0x43, 0x34, 0x3A, 0x30, 0x31, 0x2C, 0x30, 0x33, 0x2C, 0x41, 0x46,
      0x0D, 0x0A] := by decide

theorem witness_SilenceTimesOut :
    let s := { listening .idle [] [] with ticks := [4, 9] ++ [10] ++ [], t := { base.t with arrivals := [[], []] } }
    s.rst = [] ∧ s.listening = true ∧ s.rxState = .idle ∧ s.rxUnbounded = false ∧ s.t.inbound = [] ∧
      s.ticks = [4, 9] ++ [10] ++ [] ∧ s.t.arrivals = List.replicate 2 [] ++ [] ∧
      elapsedTotal s.rxLast [4, 9] < s.rxBudget.toNat ∧ s.rxBudget.toNat ≤ elapsedTotal s.rxLast ([4, 9] ++ [10]) := by
  decide

end Sys2Proof.Tests
end

section
/-! What appending a byte does to the storage of a frame, and `FRM.PUT` (R101) in its two arms. -/

namespace Sys2Proof.Machine

/-! ### The storage under `put` -/

/-- Below the capacity the storage is the old one with the byte written at the write cursor. -/
theorem Frame.buf_put_of_room {x : Frame} (hroom : x.wr.val < 64) (b : BitVec 8) :
    (x.put b).buf = Mem.write x.buf x.wr.val b := by
  rw [Frame.put, if_pos hroom]
  rfl

/-- The appended byte reads back at the offset the write cursor had. -/
theorem Frame.byte_put_wr {x : Frame} (hok : x.ok = true) (hroom : x.wr.val < 64) (b : BitVec 8) :
    (x.put b).byte x.wr.val = b := by
  rw [Frame.byte, Frame.buf_put_of_room hroom]
  exact Mem.read_write_same x.buf 0 x.wr.val b (Frame.ok_wf hok)

/-- No byte but the one at the write cursor is touched, whether the frame is full or not. -/
theorem Frame.sameBytesOutside_put (x : Frame) (b : BitVec 8) :
    x.sameBytesOutside (x.put b) x.wr.val (x.wr.val + 1) := by
  intro a ha
  obtain ⟨-, -, -, hbuf⟩ | ⟨-, hput⟩ := Frame.put_spec x b
  · have hne : a ≠ x.wr.val := by omega
    calc (x.put b).byte a
        = Mem.read (Mem.write x.buf x.wr.val b) a := by rw [Frame.byte, hbuf]
      _ = x.byte a := Mem.read_write_other x.buf x.wr.val a b hne
  · rw [hput]

/-! ### The two arms of the instruction -/

/-- Below the capacity the frame becomes `put` of itself and one byte is reported. -/
theorem exec_frmPut_room {f : FrameSel} {s : State} (hroom : (s.frame f).wr.val < 64) (b : BitVec 8) :
    exec (.frmPut f b) s = .next ((s.setFrame f ((s.frame f).put b)).answer 1) :=
  congrArg Host.Outcome.next (if_pos hroom)

/-- At the capacity nothing is stored: 0 bytes are reported, with `trunc` (R308). -/
theorem exec_frmPut_full {f : FrameSel} {s : State} (hfull : ¬ (s.frame f).wr.val < 64) (b : BitVec 8) :
    exec (.frmPut f b) s = .next (s.answer 0 [] true) :=
  congrArg Host.Outcome.next (if_neg hfull)

/-- Settles O18, by the two arms of the instruction: room for one byte more, or a full frame. -/
theorem frmPut : Obligations.FrmPut := by
  intro f b s hok
  obtain ⟨hroom, hwr, hrd, -⟩ | ⟨hcap, -⟩ := Frame.put_spec (s.frame f) b
  · refine ⟨_, exec_frmPut_room hroom b, s.onlyFrame_setFrame_answer f _ 1 [] false, ?_⟩
    rw [if_pos hroom, State.answer_frame, State.frame_setFrame]
    exact ⟨Frame.sameMeta_put _ b, hrd, State.answer_result _ 1 [] false, hwr, Frame.byte_put_wr hok hroom b,
      Frame.sameBytesOutside_put _ b⟩
  · have hfull : ¬ (s.frame f).wr.val < 64 := by omega
    refine ⟨_, exec_frmPut_full hfull b, State.onlyFrame_of_onlyResult f (s.onlyResult_answer 0 [] true), ?_⟩
    rw [if_neg hfull, State.answer_frame]
    exact ⟨⟨rfl, rfl, rfl⟩, rfl, State.answer_result s 0 [] true, rfl⟩

end Sys2Proof.Machine
end

section
/-! The fields of the header as arithmetic on its bytes (R71, R72), the operations that only read the header (R122 to
R127), and `HDR.DISPATCH` (R136). -/

namespace Sys2Proof.Machine

/-! ### The fields of byte 1 -/

theorem toNat_typeBits (b1 : BitVec 8) : (typeBits b1).toNat = b1.toNat % 8 :=
  BitVec.extractLsb'_toNat 0 3 b1

theorem toNat_encBit (b1 : BitVec 8) : (encBit b1).toNat = b1.toNat / 32 % 2 := Nat.toNat_testBit b1.toNat 5

theorem toNat_fragBit (b1 : BitVec 8) : (fragBit b1).toNat = b1.toNat / 16 % 2 := Nat.toNat_testBit b1.toNat 4

theorem toNat_ackReqBit (b1 : BitVec 8) : (ackReqBit b1).toNat = b1.toNat / 8 % 2 := Nat.toNat_testBit b1.toNat 3

/-! ### Operations that only read the header -/

/-- An instruction that answers with a number and bytes read from a frame with a header reads the header. -/
theorem State.readsHeader_of_exec {s : State} {f : FrameSel} {i : Instr} (val : Frame → Nat)
    (out : Frame → List (BitVec 8))
    (hexec : exec i s = .next (s.needHeader f fun x => s.answer (val x) (out x))) :
    s.readsHeader f i (val (s.frame f)) (out (s.frame f)) := by
  refine ⟨_, hexec, ?_⟩
  obtain ⟨hheader, hgoes⟩ | ⟨hmissing, hraises⟩ := s.needHeader_cases f fun x => s.answer (val x) (out x)
  · rw [hgoes, if_pos hheader]
    exact ⟨s.onlyResult_answer _ _ _, s.answer_result _ _ _⟩
  · rw [hraises, if_neg (Nat.not_le.2 hmissing)]
    exact ⟨s.onlyResult_raise _ _ _, s.raise_result _ _ _⟩

/-- Settles O23: each of the six is an operation that only reads the header, and its field is arithmetic on a byte. -/
theorem hdrReaders : Obligations.HdrReaders := by
  intro f s
  rw [← Frame.lengthField_eq, ← toNat_typeBits, ← toNat_encBit, ← toNat_fragBit, ← toNat_ackReqBit]
  exact ⟨State.readsHeader_of_exec Frame.lengthField (fun _ => []) rfl,
    State.readsHeader_of_exec (fun x => (typeBits (x.byte 1)).toNat) (fun _ => []) rfl,
    State.readsHeader_of_exec (fun x => (encBit (x.byte 1)).toNat) (fun _ => []) rfl,
    State.readsHeader_of_exec (fun x => (fragBit (x.byte 1)).toNat) (fun _ => []) rfl,
    State.readsHeader_of_exec (fun x => (ackReqBit (x.byte 1)).toNat) (fun _ => []) rfl,
    State.readsHeader_of_exec (fun x => (x.byte 2).toNat) (fun _ => []) rfl⟩

/-! ### The dispatch on the type -/

/-- Without a header nothing is read: `HeaderMissing` comes before the type is looked at (R121). -/
theorem exec_hdrDispatch_missing {f : FrameSel} {s : State} (hmissing : (s.frame f).wr.val < 3) :
    exec (.hdrDispatch f) s = .next (s.raise .headerMissing) :=
  congrArg Host.Outcome.next (State.needHeader_missing hmissing _)

/-- With a header the type decides: 4 to 7 name no variant, 0 to 3 are the variant's number. -/
theorem exec_hdrDispatch_of_header {f : FrameSel} {s : State} (hheader : 3 ≤ (s.frame f).wr.val) :
    exec (.hdrDispatch f) s = .next (if 4 ≤ ((s.frame f).byte 1).toNat % 8 then s.raise .unknownPacketType
      else s.answer (((s.frame f).byte 1).toNat % 8)) := by
  rw [← toNat_typeBits]
  exact congrArg Host.Outcome.next (State.needHeader_of_header hheader _)

/-- Settles O24, by the three ends of the instruction: no header, an unknown type, a variant. -/
theorem hdrDispatch : Obligations.HdrDispatch := by
  intro f s
  by_cases hmissing : (s.frame f).wr.val < 3
  · refine ⟨_, exec_hdrDispatch_missing hmissing, s.onlyResult_raise _ _ _, ?_⟩
    rw [if_pos hmissing, State.raise_result]
  · refine ⟨_, exec_hdrDispatch_of_header (Nat.not_lt.1 hmissing), ?_⟩
    rw [if_neg hmissing]
    by_cases hunknown : 4 ≤ ((s.frame f).byte 1).toNat % 8
    · rw [if_pos hunknown, if_pos hunknown]
      exact ⟨s.onlyResult_raise _ _ _, s.raise_result _ _ _⟩
    · rw [if_neg hunknown, if_neg hunknown]
      exact ⟨s.onlyResult_answer _ _ _, s.answer_result _ _ _⟩

end Sys2Proof.Machine
end

section
/-! The encoding: the words of the command port row by row (R89 to R91), from the word to the instruction and
its encoding. -/

namespace Sys2Proof.Machine

/-! ### The fields of any word -/

theorem toNat_opselOf (w : BitVec 24) : (opselOf w).toNat = w.toNat / 65536 := by
  simp only [opselOf, BitVec.extractLsb'_toNat, Nat.shiftRight_eq_div_pow]
  omega

theorem toNat_zerosOf (w : BitVec 24) : (zerosOf w).toNat = w.toNat / 512 % 128 := by
  simp only [zerosOf, BitVec.extractLsb'_toNat, Nat.shiftRight_eq_div_pow]

theorem toNat_selBitOf (w : BitVec 24) : (selBitOf w).toNat = w.toNat / 256 % 2 := Nat.toNat_testBit w.toNat 8

theorem toNat_immOf (w : BitVec 24) : (immOf w).toNat = w.toNat % 256 := by
  simp only [immOf, BitVec.extractLsb'_toNat, Nat.shiftRight_zero]

theorem zerosOf_eq_zero_iff (w : BitVec 24) : zerosOf w = 0 ↔ w.toNat / 512 % 128 = 0 := by
  rw [← toNat_zerosOf, ← BitVec.toNat_inj]
  rfl

theorem selBitOf_eq_false_iff (w : BitVec 24) : selBitOf w = false ↔ w.toNat / 256 % 2 = 0 := by
  rw [← toNat_selBitOf]
  cases selBitOf w <;> simp

/-- A word whose reserved bits are clear is put together from its fields (R89). -/
theorem commandWord_fields {w : BitVec 24} (hzeros : zerosOf w = 0) :
    commandWord (opselOf w) (selBitOf w) (immOf w) = w := by
  apply BitVec.eq_of_toNat_eq
  have hz := (zerosOf_eq_zero_iff w).1 hzeros
  rw [toNat_commandWord, toNat_opselOf, toNat_selBitOf, toNat_immOf]
  omega

theorem bitOfFrame_frameOfBit (b : Bool) : bitOfFrame (frameOfBit b) = b := by cases b <;> rfl

/-- What the data-in port gives as a string is that string behind its length, and not too long for it (R91). -/
theorem stringToPort_of_stringFromPort {d s : List (BitVec 8)} (h : stringFromPort d = some s) :
    stringToPort s = d ∧ s.length ≤ 65535 := by
  match d with
  | [] | [_] => cases h
  | lo :: hi :: r =>
    simp only [stringFromPort, Option.ite_none_right_eq_some, Option.some.injEq] at h
    obtain ⟨hlen, rfl⟩ := h
    have hlo := lo.isLt
    have hhi := hi.isLt
    have h0 : BitVec.ofNat 8 (lo.toNat + 256 * hi.toNat) = lo := by
      apply BitVec.eq_of_toNat_eq
      rw [BitVec.toNat_ofNat]
      omega
    have h1 : BitVec.ofNat 8 ((lo.toNat + 256 * hi.toNat) / 256) = hi := by
      apply BitVec.eq_of_toNat_eq
      rw [BitVec.toNat_ofNat]
      omega
    exact ⟨by simp only [stringToPort, lengthPrefix, hlen, h0, h1, List.cons_append, List.nil_append], by omega⟩

/-- The string form of R91 is what the data-in port reads as a string. -/
theorem accepts_string_iff (d : List (BitVec 8)) :
    DataForm.string.accepts d = true ↔ ∃ s, stringFromPort d = some s := by
  match d with
  | [] | [_] => simp [DataForm.accepts, stringFromPort]
  | lo :: hi :: r => simp [DataForm.accepts, stringFromPort]

/-- The form of exactly `n` bytes is a string of that length. -/
theorem accepts_bytes_iff (n : Nat) (d : List (BitVec 8)) :
    (DataForm.bytes n).accepts d = true ↔ ∃ s, stringFromPort d = some s ∧ s.length = n := by
  match d with
  | [] | [_] => simp [DataForm.accepts, stringFromPort]
  | lo :: hi :: r =>
    simp only [DataForm.accepts, stringFromPort, Bool.and_eq_true, decide_eq_true_eq,
      Option.ite_none_right_eq_some, Option.some.injEq]
    constructor
    · rintro ⟨h1, h2⟩
      exact ⟨r, ⟨by omega, rfl⟩, h2⟩
    · rintro ⟨s, ⟨h1, rfl⟩, h2⟩
      exact ⟨by omega, h2⟩

/-- Four bytes of budget, read and written back (R91). -/
theorem budgetToPort_of_budgetFromPort {d : List (BitVec 8)} {b : BitVec 32} (h : budgetFromPort d = some b) :
    budgetToPort b = d := by
  match d with
  | [] | [_] | [_, _] | [_, _, _] | _ :: _ :: _ :: _ :: _ :: _ => cases h
  | [b0, b1, b2, b3] =>
    simp only [budgetFromPort, Option.some.injEq] at h
    subst h
    have hbytes : (b3 ++ b2 ++ b1 ++ b0).toNat =
        b3.toNat * 16777216 + b2.toNat * 65536 + b1.toNat * 256 + b0.toNat := by
      simp only [toNat_append_eq]
      omega
    have := b0.isLt
    have := b1.isLt
    have := b2.isLt
    simp only [budgetToPort, List.cons.injEq, and_true, ← BitVec.toNat_inj, BitVec.extractLsb'_toNat, hbytes,
      Nat.shiftRight_eq_div_pow]
    omega

theorem budgetFromPort_budgetToPort (b : BitVec 32) : budgetFromPort (budgetToPort b) = some b := by
  simp only [budgetToPort, budgetFromPort, Option.some.injEq, ← BitVec.toNat_inj, toNat_append_eq,
    BitVec.extractLsb'_toNat, Nat.shiftRight_eq_div_pow]
  omega

theorem accepts_budget_iff (d : List (BitVec 8)) :
    DataForm.budget.accepts d = true ↔ ∃ b, budgetFromPort d = some b := by
  match d with
  | [] | [_] | [_, _] | [_, _, _] | [_, _, _, _] => simp [DataForm.accepts, budgetFromPort]
  | _ :: _ :: _ :: _ :: _ :: _ => simp [DataForm.accepts, budgetFromPort]

/-! ### A row of the table and a decoding (R89 to R91) -/

/-- A row takes a transaction, field by field. -/
theorem CommandRow.accepts_iff (c : CommandRow) (t : Transaction) : c.accepts t = true ↔
    (opselOf t.word).toNat = c.opsel ∧ zerosOf t.word = 0 ∧ (c.frame = true ∨ selBitOf t.word = false) ∧
      (immOf t.word).toNat < 2 ^ c.immBits ∧ c.data.accepts t.dataIn = true := by
  simp only [CommandRow.accepts, Bool.and_eq_true, Bool.or_eq_true, decide_eq_true_eq, toNat_opselOf, toNat_immOf,
    zerosOf_eq_zero_iff, selBitOf_eq_false_iff, and_assoc]

/-- The outcome of decoding `t` is what the row says: an instruction, well formed and with `t` as its encoding, where the
row takes `t`, and a rejection where it does not. -/
def CommandRow.decodes (c : CommandRow) (t : Transaction) : Except Reject Instr → Prop
  | .ok i => c.accepts t = true ∧ encode i = .command t ∧ wellFormed i = true
  | .error _ => c.accepts t = false

theorem CommandRow.decodes_error {c : CommandRow} {t : Transaction} {e : Reject} (h : ¬ c.accepts t = true) :
    c.decodes t (.error e) := Bool.eq_false_iff.2 h

section
variable {c : CommandRow} {t : Transaction}

theorem CommandRow.decodes_withFrame {k : FrameSel → Except Reject Instr}
    (h : ∀ f, bitOfFrame f = selBitOf t.word → c.decodes t (k f)) : c.decodes t (withFrame t k) :=
  h _ (bitOfFrame_frameOfBit _)

theorem CommandRow.decodes_noFrame {k : Except Reject Instr} (hc : c.frame = false)
    (h : selBitOf t.word = false → c.decodes t k) : c.decodes t (noFrame t k) := by
  unfold noFrame
  split
  · next hsel =>
    refine CommandRow.decodes_error fun ha => ?_
    obtain ⟨-, -, hf, -⟩ := (c.accepts_iff t).1 ha
    simp_all
  · next hsel => exact h (Bool.eq_false_iff.2 hsel)

theorem CommandRow.decodes_noImm {k : Except Reject Instr} (hc : c.immBits = 0)
    (h : immOf t.word = 0 → c.decodes t k) : c.decodes t (noImm t k) := by
  unfold noImm
  split
  · next himm => exact h himm
  · next himm =>
    refine CommandRow.decodes_error fun ha => himm ?_
    obtain ⟨-, -, -, hi, -⟩ := (c.accepts_iff t).1 ha
    rw [hc, Nat.pow_zero, Nat.lt_one_iff] at hi
    exact BitVec.eq_of_toNat_eq hi

theorem CommandRow.decodes_withImm {n : Nat} {k : BitVec n → Except Reject Instr} (hc : c.immBits = n)
    (h : ∀ v : BitVec n, v.setWidth 8 = immOf t.word → (immOf t.word).toNat < 2 ^ n → c.decodes t (k v)) :
    c.decodes t (withImm t n k) := by
  unfold withImm
  split
  · next himm =>
    refine h _ ?_ himm
    apply BitVec.eq_of_toNat_eq
    rw [BitVec.toNat_setWidth, BitVec.toNat_setWidth, Nat.mod_eq_of_lt himm, Nat.mod_eq_of_lt (BitVec.isLt _)]
  · next himm =>
    refine CommandRow.decodes_error fun ha => himm ?_
    obtain ⟨-, -, -, hi, -⟩ := (c.accepts_iff t).1 ha
    exact hc ▸ hi

/-- What remains for a row to decode a word that it takes: the instruction, from its fields. -/
theorem CommandRow.decodes_ok {i : Instr} {f : Bool} {v : BitVec 8} {d : List (BitVec 8)}
    (hop : (opselOf t.word).toNat = c.opsel) (hzeros : zerosOf t.word = 0)
    (hsel : f = selBitOf t.word) (hframe : c.frame = true ∨ f = false)
    (himm : v = immOf t.word) (hbits : v.toNat < 2 ^ c.immBits)
    (hdata : d = t.dataIn) (htakes : c.data.accepts d = true)
    (hencode : encode i = .command ⟨commandWord (BitVec.ofNat 8 c.opsel) f v, d⟩) (hwf : wellFormed i = true) :
    c.decodes t (.ok i) := by
  subst hsel himm hdata
  refine ⟨(c.accepts_iff t).2 ⟨hop, hzeros, hframe, hbits, htakes⟩, ?_, hwf⟩
  rw [hencode, ← hop, BitVec.ofNat_toNat, BitVec.setWidth_eq, commandWord_fields hzeros]

end

/-! ### The operand shapes of the table -/

section
variable {t : Transaction} {n : Nat}

theorem CommandRow.decodes_noData {c : CommandRow} {i : Instr} (hc : c.data = .none)
    (h : t.dataIn = [] → c.decodes t (.ok i)) : c.decodes t (noData t i) := by
  unfold noData
  split
  · next hd => exact h hd
  · next hd =>
    refine CommandRow.decodes_error fun ha => hd ?_
    obtain ⟨-, -, -, -, he⟩ := (c.accepts_iff t).1 ha
    rw [hc] at he
    exact List.isEmpty_iff.1 he

theorem CommandRow.decodes_withString {c : CommandRow} {k : List (BitVec 8) → Instr} (hc : c.data = .string)
    (h : ∀ s, stringToPort s = t.dataIn → wellFormedString s = true → DataForm.string.accepts (stringToPort s) = true →
      c.decodes t (.ok (k s))) : c.decodes t (withString t k) := by
  unfold withString
  split
  · next s hs =>
    obtain ⟨hport, hlen⟩ := stringToPort_of_stringFromPort hs
    exact h s hport (decide_eq_true hlen) (hport ▸ (accepts_string_iff _).2 ⟨s, hs⟩)
  · next hs =>
    refine CommandRow.decodes_error fun ha => ?_
    obtain ⟨-, -, -, -, he⟩ := (c.accepts_iff t).1 ha
    obtain ⟨s, hs'⟩ := (accepts_string_iff _).1 (hc ▸ he)
    exact Option.some_ne_none s (hs'.symm.trans hs)

variable (hzeros : zerosOf t.word = 0) (hop : (opselOf t.word).toNat = n)
include hzeros hop

theorem decodes_frameOnly {k : FrameSel → Instr}
    (henc : ∀ f, encode (k f) = encodeWord (BitVec.ofNat 8 n) (bitOfFrame f) 0 ∧ wellFormed (k f) = true) :
    CommandRow.decodes ⟨n, true, 0, .none⟩ t (frameOnly t k) :=
  CommandRow.decodes_withFrame fun f hf => CommandRow.decodes_noImm rfl fun hi => CommandRow.decodes_noData rfl fun hd =>
    CommandRow.decodes_ok hop hzeros hf (.inl rfl) hi.symm Nat.one_pos hd.symm rfl (henc f).1 (henc f).2

theorem decodes_frameImm {m : Nat} {k : FrameSel → BitVec m → Instr}
    (henc : ∀ f v, encode (k f v) = encodeWord (BitVec.ofNat 8 n) (bitOfFrame f) (v.setWidth 8) ∧
      wellFormed (k f v) = true) :
    CommandRow.decodes ⟨n, true, m, .none⟩ t (frameImm t m k) :=
  CommandRow.decodes_withFrame fun f hf => CommandRow.decodes_withImm rfl fun v hv hlt =>
    CommandRow.decodes_noData rfl fun hd =>
      CommandRow.decodes_ok hop hzeros hf (.inl rfl) hv (hv ▸ hlt) hd.symm rfl (henc f v).1 (henc f v).2

/-- An `imm8` of all eight bits. -/
theorem decodes_frameByte {k : FrameSel → BitVec 8 → Instr}
    (henc : ∀ f v, encode (k f v) = encodeWord (BitVec.ofNat 8 n) (bitOfFrame f) v ∧ wellFormed (k f v) = true) :
    CommandRow.decodes ⟨n, true, 8, .none⟩ t (frameImm t 8 k) :=
  decodes_frameImm hzeros hop fun f v => by rw [BitVec.setWidth_eq]; exact henc f v

theorem decodes_frameFlag {k : FrameSel → Bool → Instr}
    (henc : ∀ f b, encode (k f b) = encodeWord (BitVec.ofNat 8 n) (bitOfFrame f) ((BitVec.ofBool b).setWidth 8) ∧
      wellFormed (k f b) = true) :
    CommandRow.decodes ⟨n, true, 1, .none⟩ t (frameFlag t k) :=
  have hbit : ∀ v : BitVec 1, BitVec.ofBool (v.getLsbD 0) = v := by decide
  decodes_frameImm hzeros hop fun f v => by rw [← congrArg (BitVec.setWidth 8) (hbit v)]; exact henc f (v.getLsbD 0)

theorem decodes_frameString {k : FrameSel → List (BitVec 8) → Instr}
    (henc : ∀ f s, encode (k f s) = encodeString (BitVec.ofNat 8 n) (bitOfFrame f) 0 s ∧
      wellFormed (k f s) = wellFormedString s) :
    CommandRow.decodes ⟨n, true, 0, .string⟩ t (frameString t k) :=
  CommandRow.decodes_withFrame fun f hf => CommandRow.decodes_noImm rfl fun hi =>
    CommandRow.decodes_withString rfl fun s hs hwf ha =>
      CommandRow.decodes_ok hop hzeros hf (.inl rfl) hi.symm Nat.one_pos hs ha (henc f s).1 ((henc f s).2.trans hwf)

theorem decodes_stringOnly {k : List (BitVec 8) → Instr}
    (henc : ∀ s, encode (k s) = encodeString (BitVec.ofNat 8 n) false 0 s ∧ wellFormed (k s) = wellFormedString s) :
    CommandRow.decodes ⟨n, false, 0, .string⟩ t (stringOnly t k) :=
  CommandRow.decodes_noFrame rfl fun hf => CommandRow.decodes_noImm rfl fun hi =>
    CommandRow.decodes_withString rfl fun s hs hwf ha =>
      CommandRow.decodes_ok hop hzeros hf.symm (.inr rfl) hi.symm Nat.one_pos hs ha (henc s).1 ((henc s).2.trans hwf)

theorem decodes_immString {k : BitVec 8 → List (BitVec 8) → Instr}
    (henc : ∀ v s, encode (k v s) = encodeString (BitVec.ofNat 8 n) false v s ∧ wellFormed (k v s) = wellFormedString s) :
    CommandRow.decodes ⟨n, false, 8, .string⟩ t (immString t k) :=
  CommandRow.decodes_noFrame rfl fun hf => CommandRow.decodes_withImm rfl fun v hv _ =>
    CommandRow.decodes_withString rfl fun s hs hwf ha =>
      CommandRow.decodes_ok hop hzeros hf.symm (.inr rfl) ((BitVec.setWidth_eq v).symm.trans hv) v.isLt hs ha
        (henc v s).1 ((henc v s).2.trans hwf)

omit hop in
/-- `SND.SEQ`: no operand at all. -/
theorem decodes_sndSeq (hop : (opselOf t.word).toNat = 0x50) :
    CommandRow.decodes ⟨0x50, false, 0, .none⟩ t (noFrame t (noImm t (noData t .sndSeq))) :=
  CommandRow.decodes_noFrame rfl fun hf => CommandRow.decodes_noImm rfl fun hi => CommandRow.decodes_noData rfl fun hd =>
    CommandRow.decodes_ok hop hzeros hf.symm (.inr rfl) hi.symm Nat.one_pos hd.symm rfl rfl rfl

omit hop in
/-- `SND.DATA`: two option bits and a string. -/
theorem decodes_decodeData (hop : (opselOf t.word).toNat = 0x52) :
    CommandRow.decodes ⟨0x52, false, 2, .string⟩ t (decodeData t) :=
  have hbits : ∀ v : BitVec 2, (BitVec.ofBool (v.getLsbD 1) ++ BitVec.ofBool (v.getLsbD 0)).setWidth 8 = v.setWidth 8 := by
    decide
  CommandRow.decodes_noFrame rfl fun hf => CommandRow.decodes_withImm rfl fun v hv hlt =>
    CommandRow.decodes_withString rfl fun s hs hwf ha =>
      CommandRow.decodes_ok hop hzeros hf.symm (.inr rfl) ((hbits v).trans hv) ((hbits v).trans hv ▸ hlt) hs ha rfl hwf

omit hop in
/-- `FRM.ST`: an index, and a string of one byte. -/
theorem decodes_decodeSt (hop : (opselOf t.word).toNat = 0x07) :
    CommandRow.decodes ⟨0x07, true, 6, .bytes 1⟩ t (decodeSt t) := by
  refine CommandRow.decodes_withFrame fun f hf => CommandRow.decodes_withImm rfl fun v hv hlt => ?_
  split
  · next b hs =>
    have hport := (stringToPort_of_stringFromPort hs).1
    exact CommandRow.decodes_ok hop hzeros hf (.inl rfl) hv (hv ▸ hlt) hport
      (hport ▸ (accepts_bytes_iff 1 _).2 ⟨_, hs, rfl⟩) rfl rfl
  · next hno =>
    refine CommandRow.decodes_error fun ha => ?_
    obtain ⟨-, -, -, -, he⟩ := (CommandRow.accepts_iff _ t).1 ha
    obtain ⟨s, hs, hlen⟩ := (accepts_bytes_iff 1 _).1 he
    obtain ⟨b, rfl⟩ := List.length_eq_one_iff.1 hlen
    exact hno b hs

omit hop in
/-- `HDR.PACK`: a string of four bytes. -/
theorem decodes_decodePack (hop : (opselOf t.word).toNat = 0x1F) :
    CommandRow.decodes ⟨0x1F, true, 0, .bytes 4⟩ t (decodePack t) := by
  refine CommandRow.decodes_withFrame fun f hf => CommandRow.decodes_noImm rfl fun hi => ?_
  split
  · next l g y d hs =>
    have hport := (stringToPort_of_stringFromPort hs).1
    exact CommandRow.decodes_ok hop hzeros hf (.inl rfl) hi.symm Nat.one_pos hport
      (hport ▸ (accepts_bytes_iff 4 _).2 ⟨_, hs, rfl⟩) rfl rfl
  · next hno =>
    refine CommandRow.decodes_error fun ha => ?_
    obtain ⟨-, -, -, -, he⟩ := (CommandRow.accepts_iff _ t).1 ha
    obtain ⟨s, hs, hlen⟩ := (accepts_bytes_iff 4 _).1 he
    match s, hlen with
    | [l, g, y, d], _ => exact hno l g y d hs

omit hop in
/-- `RCV.LISTEN`: a frame and four bytes of budget. -/
theorem decodes_decodeListen (hop : (opselOf t.word).toNat = 0x60) :
    CommandRow.decodes ⟨0x60, true, 0, .budget⟩ t (decodeListen t) := by
  refine CommandRow.decodes_withFrame fun f hf => CommandRow.decodes_noImm rfl fun hi => ?_
  split
  · next b hb =>
    have hport := budgetToPort_of_budgetFromPort hb
    exact CommandRow.decodes_ok hop hzeros hf (.inl rfl) hi.symm Nat.one_pos hport
      (hport ▸ (accepts_budget_iff _).2 ⟨b, hb⟩) rfl rfl
  · next hno =>
    refine CommandRow.decodes_error fun ha => ?_
    obtain ⟨-, -, -, -, he⟩ := (CommandRow.accepts_iff _ t).1 ha
    obtain ⟨b, hb⟩ := (accepts_budget_iff _).1 he
    exact Option.some_ne_none b (hb.symm.trans hno)

end

/-! ### The 49 rows -/

/-- The outcome of decoding `t` is what a row with its `opsel` says, or no row has that `opsel` and it is a rejection. -/
def decodedByTable (t : Transaction) (o : Except Reject Instr) : Prop :=
  (∃ c ∈ commandRows, c.opsel = (opselOf t.word).toNat ∧ c.decodes t o) ∨
    ((∀ c ∈ commandRows, c.opsel ≠ (opselOf t.word).toNat) ∧ ∃ e, o = .error e)

theorem decodedByTable_row {t : Transaction} {o : Except Reject Instr} (c : CommandRow) (hc : c ∈ commandRows)
    (hop : (opselOf t.word).toNat = c.opsel) (h : c.decodes t o) : decodedByTable t o := .inl ⟨c, hc, hop.symm, h⟩

/-- Decoding by `opsel`, row by row (R90). -/
theorem decodeOpsel_decodedByTable {t : Transaction} (hzeros : zerosOf t.word = 0) :
    decodedByTable t (decodeOpsel t) := by
  unfold decodeOpsel
  split
  · next h =>
    exact decodedByTable_row ⟨0x01, true, 0, .none⟩ (by decide) h (decodes_frameOnly hzeros h fun _ => ⟨rfl, rfl⟩)
  · next h =>
    exact decodedByTable_row ⟨0x02, true, 8, .none⟩ (by decide) h (decodes_frameByte hzeros h fun _ _ => ⟨rfl, rfl⟩)
  · next h =>
    exact decodedByTable_row ⟨0x03, true, 0, .none⟩ (by decide) h (decodes_frameOnly hzeros h fun _ => ⟨rfl, rfl⟩)
  · next h =>
    exact decodedByTable_row ⟨0x04, true, 8, .none⟩ (by decide) h (decodes_frameByte hzeros h fun _ _ => ⟨rfl, rfl⟩)
  · next h =>
    exact decodedByTable_row ⟨0x05, true, 0, .none⟩ (by decide) h (decodes_frameOnly hzeros h fun _ => ⟨rfl, rfl⟩)
  · next h =>
    exact decodedByTable_row ⟨0x06, true, 6, .none⟩ (by decide) h (decodes_frameImm hzeros h fun _ _ => ⟨rfl, rfl⟩)
  · next h =>
    exact decodedByTable_row ⟨0x07, true, 6, .bytes 1⟩ (by decide) h (decodes_decodeSt hzeros h)
  · next h =>
    exact decodedByTable_row ⟨0x08, true, 0, .none⟩ (by decide) h (decodes_frameOnly hzeros h fun _ => ⟨rfl, rfl⟩)
  · next h =>
    exact decodedByTable_row ⟨0x10, true, 8, .none⟩ (by decide) h (decodes_frameByte hzeros h fun _ _ => ⟨rfl, rfl⟩)
  · next h =>
    exact decodedByTable_row ⟨0x11, true, 0, .none⟩ (by decide) h (decodes_frameOnly hzeros h fun _ => ⟨rfl, rfl⟩)
  · next h =>
    exact decodedByTable_row ⟨0x12, true, 0, .none⟩ (by decide) h (decodes_frameOnly hzeros h fun _ => ⟨rfl, rfl⟩)
  · next h =>
    exact decodedByTable_row ⟨0x13, true, 0, .none⟩ (by decide) h (decodes_frameOnly hzeros h fun _ => ⟨rfl, rfl⟩)
  · next h =>
    exact decodedByTable_row ⟨0x14, true, 0, .none⟩ (by decide) h (decodes_frameOnly hzeros h fun _ => ⟨rfl, rfl⟩)
  · next h =>
    exact decodedByTable_row ⟨0x15, true, 0, .none⟩ (by decide) h (decodes_frameOnly hzeros h fun _ => ⟨rfl, rfl⟩)
  · next h =>
    exact decodedByTable_row ⟨0x16, true, 0, .none⟩ (by decide) h (decodes_frameOnly hzeros h fun _ => ⟨rfl, rfl⟩)
  · next h =>
    exact decodedByTable_row ⟨0x17, true, 8, .none⟩ (by decide) h (decodes_frameByte hzeros h fun _ _ => ⟨rfl, rfl⟩)
  · next h =>
    exact decodedByTable_row ⟨0x18, true, 3, .none⟩ (by decide) h (decodes_frameImm hzeros h fun _ _ => ⟨rfl, rfl⟩)
  · next h =>
    exact decodedByTable_row ⟨0x19, true, 1, .none⟩ (by decide) h (decodes_frameFlag hzeros h fun _ _ => ⟨rfl, rfl⟩)
  · next h =>
    exact decodedByTable_row ⟨0x1A, true, 1, .none⟩ (by decide) h (decodes_frameFlag hzeros h fun _ _ => ⟨rfl, rfl⟩)
  · next h =>
    exact decodedByTable_row ⟨0x1B, true, 1, .none⟩ (by decide) h (decodes_frameFlag hzeros h fun _ _ => ⟨rfl, rfl⟩)
  · next h =>
    exact decodedByTable_row ⟨0x1C, true, 8, .none⟩ (by decide) h (decodes_frameByte hzeros h fun _ _ => ⟨rfl, rfl⟩)
  · next h =>
    exact decodedByTable_row ⟨0x1D, true, 0, .none⟩ (by decide) h (decodes_frameOnly hzeros h fun _ => ⟨rfl, rfl⟩)
  · next h =>
    exact decodedByTable_row ⟨0x1E, true, 0, .none⟩ (by decide) h (decodes_frameOnly hzeros h fun _ => ⟨rfl, rfl⟩)
  · next h =>
    exact decodedByTable_row ⟨0x1F, true, 0, .bytes 4⟩ (by decide) h (decodes_decodePack hzeros h)
  · next h =>
    exact decodedByTable_row ⟨0x20, true, 0, .none⟩ (by decide) h (decodes_frameOnly hzeros h fun _ => ⟨rfl, rfl⟩)
  · next h =>
    exact decodedByTable_row ⟨0x28, true, 0, .string⟩ (by decide) h (decodes_frameString hzeros h fun _ _ => ⟨rfl, rfl⟩)
  · next h =>
    exact decodedByTable_row ⟨0x29, true, 0, .string⟩ (by decide) h (decodes_frameString hzeros h fun _ _ => ⟨rfl, rfl⟩)
  · next h =>
    exact decodedByTable_row ⟨0x2A, true, 0, .none⟩ (by decide) h (decodes_frameOnly hzeros h fun _ => ⟨rfl, rfl⟩)
  · next h =>
    exact decodedByTable_row ⟨0x2B, true, 0, .none⟩ (by decide) h (decodes_frameOnly hzeros h fun _ => ⟨rfl, rfl⟩)
  · next h =>
    exact decodedByTable_row ⟨0x30, true, 8, .none⟩ (by decide) h (decodes_frameByte hzeros h fun _ _ => ⟨rfl, rfl⟩)
  · next h =>
    exact decodedByTable_row ⟨0x31, true, 0, .none⟩ (by decide) h (decodes_frameOnly hzeros h fun _ => ⟨rfl, rfl⟩)
  · next h =>
    exact decodedByTable_row ⟨0x32, true, 0, .string⟩ (by decide) h (decodes_frameString hzeros h fun _ _ => ⟨rfl, rfl⟩)
  · next h =>
    exact decodedByTable_row ⟨0x33, true, 0, .none⟩ (by decide) h (decodes_frameOnly hzeros h fun _ => ⟨rfl, rfl⟩)
  · next h =>
    exact decodedByTable_row ⟨0x38, true, 8, .none⟩ (by decide) h (decodes_frameByte hzeros h fun _ _ => ⟨rfl, rfl⟩)
  · next h =>
    exact decodedByTable_row ⟨0x39, true, 0, .none⟩ (by decide) h (decodes_frameOnly hzeros h fun _ => ⟨rfl, rfl⟩)
  · next h =>
    exact decodedByTable_row ⟨0x3A, true, 0, .string⟩ (by decide) h (decodes_frameString hzeros h fun _ _ => ⟨rfl, rfl⟩)
  · next h =>
    exact decodedByTable_row ⟨0x3B, true, 0, .none⟩ (by decide) h (decodes_frameOnly hzeros h fun _ => ⟨rfl, rfl⟩)
  · next h =>
    exact decodedByTable_row ⟨0x40, true, 0, .string⟩ (by decide) h (decodes_frameString hzeros h fun _ _ => ⟨rfl, rfl⟩)
  · next h =>
    exact decodedByTable_row ⟨0x41, true, 0, .none⟩ (by decide) h (decodes_frameOnly hzeros h fun _ => ⟨rfl, rfl⟩)
  · next h =>
    exact decodedByTable_row ⟨0x48, false, 0, .string⟩ (by decide) h (decodes_stringOnly hzeros h fun _ => ⟨rfl, rfl⟩)
  · next h =>
    exact decodedByTable_row ⟨0x49, false, 0, .string⟩ (by decide) h (decodes_stringOnly hzeros h fun _ => ⟨rfl, rfl⟩)
  · next h =>
    exact decodedByTable_row ⟨0x50, false, 0, .none⟩ (by decide) h (decodes_sndSeq hzeros h)
  · next h =>
    exact decodedByTable_row ⟨0x51, true, 0, .none⟩ (by decide) h (decodes_frameOnly hzeros h fun _ => ⟨rfl, rfl⟩)
  · next h =>
    exact decodedByTable_row ⟨0x52, false, 2, .string⟩ (by decide) h (decodes_decodeData hzeros h)
  · next h =>
    exact decodedByTable_row ⟨0x53, false, 8, .string⟩ (by decide) h (decodes_immString hzeros h fun _ _ => ⟨rfl, rfl⟩)
  · next h =>
    exact decodedByTable_row ⟨0x54, false, 8, .string⟩ (by decide) h (decodes_immString hzeros h fun _ _ => ⟨rfl, rfl⟩)
  · next h =>
    exact decodedByTable_row ⟨0x55, false, 8, .string⟩ (by decide) h (decodes_immString hzeros h fun _ _ => ⟨rfl, rfl⟩)
  · next h =>
    exact decodedByTable_row ⟨0x56, false, 0, .string⟩ (by decide) h (decodes_stringOnly hzeros h fun _ => ⟨rfl, rfl⟩)
  · next h =>
    exact decodedByTable_row ⟨0x60, true, 0, .budget⟩ (by decide) h (decodes_decodeListen hzeros h)
  · next hnone =>
    refine .inr ⟨fun c hc hop => ?_, _, rfl⟩
    have hmem : c.opsel ∈ commandRows.map CommandRow.opsel := List.mem_map_of_mem hc
    rw [hop] at hmem
    simp only [commandRows, rowsFrm, rowsHdr, rowsVariants, rowsAgents, List.cons_append, List.nil_append, List.map_cons,
      List.map_nil, List.mem_cons, List.not_mem_nil, or_false] at hmem
    simp_all

/-- A row takes a transaction with clear reserved bits only where its `opsel` is the row's; the rows' are distinct. -/
theorem commandRow_unique {c d : CommandRow} (hc : c ∈ commandRows) (hd : d ∈ commandRows) (h : c.opsel = d.opsel) :
    c = d :=
  have hdistinct : (commandRows.map CommandRow.opsel).Nodup := by decide
  List.inj_on_of_nodup_map hdistinct hc hd h

theorem isOperation_iff (t : Transaction) : isOperation t = true ↔ ∃ c ∈ commandRows, c.accepts t = true := by
  simp [isOperation]

/-- The decoder of the command port, said once: an accepted word is an operation and the encoding of its instruction, and
a rejected word is no operation (R89 to R91). -/
theorem decodeCommand_cases (t : Transaction) :
    (∃ i, decodeCommand t = .ok i ∧ isOperation t = true ∧ encode i = .command t ∧ wellFormed i = true) ∨
      (∃ e, decodeCommand t = .error e ∧ isOperation t = false) := by
  unfold decodeCommand
  split
  · next hzeros =>
    cases ho : decodeOpsel t with
    | ok i =>
      obtain ⟨c, hc, -, hdec⟩ | ⟨-, e, he⟩ := decodeOpsel_decodedByTable hzeros
      · rw [ho] at hdec
        exact .inl ⟨i, rfl, (isOperation_iff t).2 ⟨c, hc, hdec.1⟩, hdec.2⟩
      · rw [ho] at he
        cases he
    | error e =>
      refine .inr ⟨e, rfl, Bool.eq_false_iff.2 fun hop => ?_⟩
      obtain ⟨d, hd, hacc⟩ := (isOperation_iff t).1 hop
      have hdop := ((d.accepts_iff t).1 hacc).1
      obtain ⟨c, hc, hcop, hdec⟩ | ⟨hno, -⟩ := decodeOpsel_decodedByTable hzeros
      · rw [ho, commandRow_unique hc hd (hcop.trans hdop)] at hdec
        exact absurd (hacc.symm.trans hdec) (by decide)
      · exact hno d hd hdop.symm
  · next hzeros =>
    refine .inr ⟨_, rfl, Bool.eq_false_iff.2 fun hop => ?_⟩
    obtain ⟨c, -, hacc⟩ := (isOperation_iff t).1 hop
    exact hzeros ((c.accepts_iff t).1 hacc).2.1

/-- Settles O5: the decoder accepts what the table accepts, and a step refuses what it rejects. -/
theorem notAcceptedWords : Obligations.NotAcceptedWords := by
  intro t
  refine ⟨fun hop => ?_, fun hop => ?_, fun e s r herr hrst hlisten hhost => ?_⟩
  · obtain ⟨i, hi, -⟩ | ⟨-, -, hno⟩ := decodeCommand_cases t
    · exact ⟨i, hi⟩
    · exact absurd (hop.symm.trans hno) (by decide)
  · obtain ⟨-, -, hyes, -⟩ | ⟨e, he, -⟩ := decodeCommand_cases t
    · exact absurd (hyes.symm.trans hop) (by decide)
    · exact ⟨e, he⟩
  · simp [step, hrst, State.run, State.fetch, hlisten, hhost, herr]

end Sys2Proof.Machine
end

section
/-! The header words (R71 to R74, R80): written from their fields, decoded by type and ENC, read off a frame's bytes. -/

namespace Sys2Proof.Machine

/-- A header word, read as its fields and written again. -/
theorem headerWord_fields (w : BitVec 24) :
    headerWord (w.extractLsb' 8 3) (w.getLsbD 13) (headerFields w) = w := by
  apply BitVec.eq_of_toNat_eq
  have hbit : ∀ i, (w.getLsbD i).toNat = w.toNat / 2 ^ i % 2 := Nat.toNat_testBit w.toNat
  simp only [toNat_headerWord, headerFields, BitVec.extractLsb'_toNat, Nat.shiftRight_eq_div_pow, hbit]
  omega

/-- The fields read back from a header word are those it was written from. -/
theorem fields_headerWord (type : BitVec 3) (enc : Bool) (h : HeaderFields) :
    (headerWord type enc h).extractLsb' 8 3 = type ∧ (headerWord type enc h).getLsbD 13 = enc ∧
      headerFields (headerWord type enc h) = h := by
  obtain ⟨u0, len, u1, frag, ack, id⟩ := h
  have hw := toNat_headerWord type enc ⟨u0, len, u1, frag, ack, id⟩
  have := u0.isLt
  have := len.isLt
  have := u1.isLt
  have := id.isLt
  have := type.isLt
  have := enc.toNat_lt
  have := frag.toNat_lt
  have := ack.toNat_lt
  have hinj : ∀ a b : Bool, a.toNat = b.toNat → a = b := by decide
  have hbit : ∀ (i : Nat) (b : Bool), (headerWord type enc ⟨u0, len, u1, frag, ack, id⟩).toNat / 2 ^ i % 2 = b.toNat →
      (headerWord type enc ⟨u0, len, u1, frag, ack, id⟩).getLsbD i = b :=
    fun i b h => hinj _ _ ((Nat.toNat_testBit _ i).trans h)
  simp only [headerFields, HeaderFields.mk.injEq]
  refine ⟨BitVec.eq_of_toNat_eq ?_, hbit 13 enc ?_, BitVec.eq_of_toNat_eq ?_, BitVec.eq_of_toNat_eq ?_,
    BitVec.eq_of_toNat_eq ?_, hbit 12 frag ?_, hbit 11 ack ?_, BitVec.eq_of_toNat_eq ?_⟩
  all_goals
    simp only [BitVec.extractLsb'_toNat, Nat.shiftRight_eq_div_pow, hw]
    omega

/-- The types from 4 on are the reserved ones, told apart by their two lower bits (R80). -/
theorem reserved_type : ∀ y : BitVec 3, 4 ≤ y.toNat →
    1#1 ++ y.extractLsb' 0 2 = y ∧ y.extractLsb' 0 2 = BitVec.ofNat 2 (y.toNat - 4) := by decide

/-- The two lower bits of the type field, read from the word. -/
theorem extractLsb_type (w : BitVec 24) : w.extractLsb' 8 2 = (w.extractLsb' 8 3).extractLsb' 0 2 := by
  apply BitVec.eq_of_toNat_eq
  simp only [BitVec.extractLsb'_toNat, Nat.shiftRight_eq_div_pow]
  omega

/-- The header rows by the number of the type (R80), the decoder's own choice among them (`decodeHeader_eq`). -/
def headerRow (type : Nat) (low : BitVec 2) (enc : Bool) (h : HeaderFields) : Instr :=
  match type with
  | 0 => if enc then .typeDataEnc h else .typeDataRaw h
  | 1 => .typeCommand enc h
  | 2 => .typeAck enc h
  | 3 => .typeNotice enc h
  | _ + 4 => .typeReserved low enc h

theorem decodeHeader_eq (w : BitVec 24) : decodeHeader w =
    headerRow (w.extractLsb' 8 3).toNat ((w.extractLsb' 8 3).extractLsb' 0 2) (w.getLsbD 13) (headerFields w) := by
  rw [← extractLsb_type]
  unfold decodeHeader headerRow
  generalize (w.extractLsb' 8 3).toNat = n
  match n with
  | 0 | 1 | 2 | 3 => rfl
  | _ + 4 => rfl

/-- Decoding a header word gives the row it was written for. -/
theorem decodeHeader_headerWord (type : BitVec 3) (enc : Bool) (h : HeaderFields) :
    decodeHeader (headerWord type enc h) = headerRow type.toNat (type.extractLsb' 0 2) enc h := by
  obtain ⟨htype, henc, hfields⟩ := fields_headerWord type enc h
  rw [decodeHeader_eq, htype, henc, hfields]

/-- A header word decodes to a row whose encoding it is. -/
theorem encode_decodeHeader (w : BitVec 24) : encode (decodeHeader w) = .header w := by
  have hw := headerWord_fields w
  rw [decodeHeader_eq]
  generalize w.extractLsb' 8 3 = y at hw ⊢
  generalize w.getLsbD 13 = enc at hw ⊢
  have hencode : encode (headerRow y.toNat (y.extractLsb' 0 2) enc (headerFields w)) =
      .header (headerWord y enc (headerFields w)) := by
    match hy : y.toNat with
    | 0 =>
      rw [BitVec.eq_of_toNat_eq (y := 0) hy]
      cases enc <;> rfl
    | 1 => rw [BitVec.eq_of_toNat_eq (y := 1) hy]; rfl
    | 2 => rw [BitVec.eq_of_toNat_eq (y := 2) hy]; rfl
    | 3 => rw [BitVec.eq_of_toNat_eq (y := 3) hy]; rfl
    | n + 4 =>
      have hlow := (reserved_type y (by omega)).1
      exact congrArg (fun y => Fetched.header (headerWord y enc (headerFields w))) hlow
  rw [hencode, hw]

theorem wellFormed_decodeHeader (w : BitVec 24) : wellFormed (decodeHeader w) = true := by
  rw [decodeHeader_eq]
  generalize (w.extractLsb' 8 3).toNat = n
  match n with
  | 0 => cases w.getLsbD 13 <;> rfl
  | 1 | 2 | 3 => rfl
  | _ + 4 => rfl

/-- Settles O3: a header word by its fields, a command by the row that takes it. -/
theorem encodeOfDecode : Obligations.EncodeOfDecode := by
  intro w i h
  cases w with
  | header w =>
    obtain rfl : decodeHeader w = i := Except.ok.inj h
    exact ⟨encode_decodeHeader w, wellFormed_decodeHeader w⟩
  | command t =>
    obtain ⟨j, hj, -, henc⟩ | ⟨e, he, -⟩ := decodeCommand_cases t
    · obtain rfl : j = i := Except.ok.inj (hj.symm.trans h)
      exact henc
    · cases he.symm.trans h

/-! ### The header of a frame as an instruction -/

theorem Frame.toNat_headerWord (x : Frame) :
    x.headerWord.toNat = (x.byte 0).toNat * 65536 + (x.byte 1).toNat * 256 + (x.byte 2).toNat := by
  simp only [Frame.headerWord, toNat_append_eq]
  omega

/-- The length that the instruction of a completed frame carries is the frame's own (R71, R257). -/
theorem Frame.length_headerFields (x : Frame) : (headerFields x.headerWord).length.toNat = x.lengthField := by
  have := (x.byte 1).isLt
  have := (x.byte 2).isLt
  simp only [headerFields, BitVec.extractLsb'_toNat, Frame.toNat_headerWord, Frame.lengthField_eq,
    Nat.shiftRight_eq_div_pow]
  omega

/-- A flag of byte 1 stands eight places higher in the header word. -/
theorem Frame.getLsbD_headerWord (x : Frame) {k : Nat} (hk : k < 8) :
    x.headerWord.getLsbD (8 + k) = (x.byte 1).getLsbD k := by
  rw [Frame.headerWord, BitVec.getLsbD_append, if_neg (by omega), Nat.add_sub_cancel_left, BitVec.getLsbD_append,
    if_pos hk]

/-- Settles O4: the fields of the header word are those of the three bytes. -/
theorem headerWordFields : Obligations.HeaderWordFields := by
  intro x
  have hw := x.toNat_headerWord
  have h0 := (x.byte 0).isLt
  have h1 := (x.byte 1).isLt
  have h2 := (x.byte 2).isLt
  have htype : (x.headerWord.extractLsb' 8 3).toNat = (x.byte 1).toNat % 8 := by
    simp only [BitVec.extractLsb'_toNat, Nat.shiftRight_eq_div_pow, hw]
    omega
  refine ⟨headerFields x.headerWord, ?_, ?_, ?_, x.getLsbD_headerWord (k := 4) (by decide),
    x.getLsbD_headerWord (k := 3) (by decide),
    BitVec.eq_of_toNat_eq ?_, congrArg Except.ok ?_⟩
  · simp only [headerFields, BitVec.extractLsb'_toNat, Nat.shiftRight_eq_div_pow, hw]
    omega
  · rw [x.length_headerFields, x.lengthField_eq]
  · simp only [headerFields, BitVec.extractLsb'_toNat, Nat.shiftRight_eq_div_pow, hw]
    omega
  · simp only [headerFields, BitVec.extractLsb'_toNat, Nat.shiftRight_eq_div_pow, hw]
    omega
  · have henc : x.headerWord.getLsbD 13 = (x.byte 1).getLsbD 5 := x.getLsbD_headerWord (k := 5) (by decide)
    rw [decodeHeader_eq, henc, ← htype]
    have hlow := reserved_type (x.headerWord.extractLsb' 8 3)
    generalize (x.headerWord.extractLsb' 8 3).toNat = n at hlow ⊢
    match n with
    | 0 | 1 | 2 | 3 => rfl
    | m + 4 => exact congrArg (fun low => Instr.typeReserved low _ _) (hlow (by omega)).2

end Sys2Proof.Machine
end

section
/-! Decoding what was encoded (R74, R89 to R91): each operand shape's decoder inverts what the encoder writes. -/

namespace Sys2Proof.Machine

/-- A command word is decoded by its `opsel`. -/
theorem decode_commandWord (o v : BitVec 8) (f : Bool) (d : List (BitVec 8)) :
    decode (.command ⟨commandWord o f v, d⟩) = decodeOpsel ⟨commandWord o f v, d⟩ := if_pos (zerosOf_commandWord o f v)

section
variable (o : BitVec 8) (f : FrameSel)

theorem frameOnly_encodeWord (k : FrameSel → Instr) :
    frameOnly ⟨commandWord o (bitOfFrame f) 0, []⟩ k = .ok (k f) := by
  simp [frameOnly, withFrame, noImm, noData]

theorem withImm_commandWord {n : Nat} (hn : n ≤ 8) (b : Bool) (v : BitVec n) (d : List (BitVec 8))
    (k : BitVec n → Except Reject Instr) : withImm ⟨commandWord o b (v.setWidth 8), d⟩ n k = k v := by
  have hlt : (v.setWidth 8).toNat = v.toNat := by
    rw [BitVec.toNat_setWidth]
    exact Nat.mod_eq_of_lt (Nat.lt_of_lt_of_le v.isLt (Nat.pow_le_pow_right (by decide) hn))
  have hback : (v.setWidth 8).setWidth n = v := by
    apply BitVec.eq_of_toNat_eq
    rw [BitVec.toNat_setWidth, hlt]
    exact Nat.mod_eq_of_lt v.isLt
  rw [withImm, immOf_commandWord, if_pos (hlt ▸ v.isLt), hback]

theorem frameImm_encodeWord {n : Nat} (hn : n ≤ 8) (v : BitVec n) (k : FrameSel → BitVec n → Instr) :
    frameImm ⟨commandWord o (bitOfFrame f) (v.setWidth 8), []⟩ n k = .ok (k f v) := by
  rw [frameImm, withFrame, withImm_commandWord o hn, selBitOf_commandWord, frameOfBit_bitOfFrame]
  rfl

theorem frameByte_encodeWord (v : BitVec 8) (k : FrameSel → BitVec 8 → Instr) :
    frameImm ⟨commandWord o (bitOfFrame f) v, []⟩ 8 k = .ok (k f v) := by
  rw [← frameImm_encodeWord o f (Nat.le_refl 8) v k, BitVec.setWidth_eq]

theorem frameFlag_encodeWord (b : Bool) (k : FrameSel → Bool → Instr) :
    frameFlag ⟨commandWord o (bitOfFrame f) ((BitVec.ofBool b).setWidth 8), []⟩ k = .ok (k f b) := by
  rw [frameFlag, frameImm_encodeWord o f (by decide)]
  cases b <;> rfl

theorem withString_stringToPort {s : List (BitVec 8)} (hs : wellFormedString s = true) (w : BitVec 24)
    (k : List (BitVec 8) → Instr) : withString ⟨w, stringToPort s⟩ k = .ok (k s) := by
  rw [withString, stringFromPort_stringToPort (of_decide_eq_true hs)]

theorem frameString_encodeString {s : List (BitVec 8)} (hs : wellFormedString s = true)
    (k : FrameSel → List (BitVec 8) → Instr) :
    frameString ⟨commandWord o (bitOfFrame f) 0, stringToPort s⟩ k = .ok (k f s) := by
  simp [frameString, withFrame, noImm, withString_stringToPort hs]

theorem stringOnly_encodeString {s : List (BitVec 8)} (hs : wellFormedString s = true) (k : List (BitVec 8) → Instr) :
    stringOnly ⟨commandWord o false 0, stringToPort s⟩ k = .ok (k s) := by
  simp [stringOnly, noFrame, noImm, withString_stringToPort hs]

theorem immString_encodeString {s : List (BitVec 8)} (hs : wellFormedString s = true) (v : BitVec 8)
    (k : BitVec 8 → List (BitVec 8) → Instr) :
    immString ⟨commandWord o false v, stringToPort s⟩ k = .ok (k v s) := by
  simp [immString, noFrame, withImm, withString_stringToPort hs, v.isLt]

end

/-- Settles O2, by the shape of the operands: each shape's decoder inverts what the encoder writes. -/
theorem decodeOfEncode : Obligations.DecodeOfEncode := by
  intro i hwf
  cases i
  case typeDataRaw h | typeDataEnc h => exact congrArg Except.ok (decodeHeader_headerWord 0 _ h)
  case typeCommand enc h => exact congrArg Except.ok (decodeHeader_headerWord 1 enc h)
  case typeAck enc h => exact congrArg Except.ok (decodeHeader_headerWord 2 enc h)
  case typeNotice enc h => exact congrArg Except.ok (decodeHeader_headerWord 3 enc h)
  case typeReserved low enc h =>
    have htype : ∀ l : BitVec 2, 4 ≤ ((1 : BitVec 1) ++ l).toNat ∧ ((1 : BitVec 1) ++ l).extractLsb' 0 2 = l := by decide
    obtain ⟨n, hn⟩ := Nat.exists_eq_add_of_le' (htype low).1
    refine congrArg Except.ok ((decodeHeader_headerWord _ enc h).trans ?_)
    rw [hn, (htype low).2]
    rfl
  case frmClear f | frmGet f | frmExtent f | frmMeta f | hdrLen f | hdrType f | hdrEnc f | hdrFrag f | hdrAckReq f |
      hdrId f | hdrUpdLen f | hdrDispatch f | hdrUnpack f | datDecode f | datGet f | cmdGetOp f | cmdGetParam f |
      ackGetOp f | ackGetResp f | ntcGet f | sndXmit f =>
    rw [encode, encodeWord, decode_commandWord, decodeOpsel, opselOf_commandWord]
    exact frameOnly_encodeWord _ f _
  case frmPut f v | frmResetLen f v | hdrReset f v | hdrSetLen f v | hdrSetId f v | cmdSetOp f v | ackSetOp f v =>
    rw [encode, encodeWord, decode_commandWord, decodeOpsel, opselOf_commandWord]
    exact frameByte_encodeWord _ f v _
  case frmLd f v | hdrSetType f v =>
    rw [encode, encodeWord, decode_commandWord, decodeOpsel, opselOf_commandWord]
    exact frameImm_encodeWord _ f (by decide) v _
  case hdrSetEnc f b | hdrSetFrag f b | hdrSetAckReq f b =>
    rw [encode, encodeWord, decode_commandWord, decodeOpsel, opselOf_commandWord]
    exact frameFlag_encodeWord _ f b _
  case datSetRaw f s | datSetEnc f s | cmdSetParam f s | ackSetResp f s | ntcSet f s =>
    rw [encode, encodeString, decode_commandWord, decodeOpsel, opselOf_commandWord]
    exact frameString_encodeString _ f hwf _
  case expEnc s | expDec s | sndNotice s =>
    rw [encode, encodeString, decode_commandWord, decodeOpsel, opselOf_commandWord]
    exact stringOnly_encodeString _ hwf _
  case sndCmd v s | sndCmdAck v s | sndAck v s =>
    rw [encode, encodeString, decode_commandWord, decodeOpsel, opselOf_commandWord]
    exact immString_encodeString _ hwf v _
  case frmSt f v b =>
    rw [encode, encodeString, decode_commandWord, decodeOpsel, opselOf_commandWord]
    show decodeSt _ = _
    rw [decodeSt, withFrame, withImm_commandWord _ (by decide), stringFromPort_stringToPort (by simp),
      selBitOf_commandWord, frameOfBit_bitOfFrame]
  case hdrPack f l g y d =>
    rw [encode, encodeString, decode_commandWord, decodeOpsel, opselOf_commandWord]
    show decodePack _ = _
    simp [decodePack, withFrame, noImm, stringFromPort_stringToPort]
  case sndSeq =>
    rw [encode, encodeWord, decode_commandWord, decodeOpsel, opselOf_commandWord]
    show noFrame _ _ = _
    simp [noFrame, noImm, noData]
  case sndData a b s =>
    rw [encode, encodeString, decode_commandWord, decodeOpsel, opselOf_commandWord]
    show decodeData _ = _
    rw [decodeData, noFrame, selBitOf_commandWord, withImm_commandWord _ (by decide), withString_stringToPort hwf]
    cases a <;> cases b <;> rfl
  case rcvListen f b =>
    rw [encode, decode_commandWord, decodeOpsel, opselOf_commandWord]
    show decodeListen _ = _
    simp [decodeListen, withFrame, noImm, budgetFromPort_budgetToPort]

/-- Settles O1, each word by evaluation. -/
theorem decodesWords : Obligations.DecodesWords := by
  refine ⟨?_, ?_, ?_, ?_, ?_, ?_, ?_⟩ <;> decide

end Sys2Proof.Machine
end

section
/-! The operations of files 40 to 43, said once: how each of them can end, and that none of them touches anything but the
frame it names and the result (R313 and the preambles of those files). -/

namespace Sys2Proof.Machine

theorem Frame.sameMeta_refl (x : Frame) : x.sameMeta x := ⟨rfl, rfl, rfl⟩

theorem Frame.ok_setRd {x : Frame} (hok : x.ok = true) {c : Fin 65} (hc : c ≤ x.wr) :
    ({ x with rd := c } : Frame).ok = true :=
  have hwf := Frame.ok_wf hok
  (Frame.ok_iff { x with rd := c }).2 ⟨hc, hwf⟩

/-- How an operation on the frame `f` ends: with an error, with an answer, or with an answer and the frame replaced by one
with the same metadata, well formed if the old one was. -/
inductive frameOpEnds (f : Option FrameSel) (s : State) : State → Prop
  | error (c : Cause) : frameOpEnds f s (s.raise c)
  | read (v : Nat) (o : List (BitVec 8)) (b : Bool) : frameOpEnds f s (s.answer v o b)
  | write (g : FrameSel) (x : Frame) (v : Nat) (o : List (BitVec 8)) (b : Bool) (hf : f = some g)
      (hmeta : (s.frame g).sameMeta x) (hok : (s.frame g).ok = true → x.ok = true) :
      frameOpEnds f s ((s.setFrame g x).answer v o b)

/-- Every operation of files 40 to 43 completes, in every state, in one of the three ways. -/
theorem exec_frameOp {i : Instr} (h : isFrameOp i = true) (s : State) :
    ∃ t, exec i s = .next t ∧ frameOpEnds (frameOperand i) s t := by
  have hset : ∀ (f : FrameSel) (k v : BitVec 8) (j : Nat), j < 64 →
      frameOpEnds (some f) s ((s.setFrame f ((s.frame f).setByte j v)).answer k.toNat) :=
    fun f k v j hj => .write f _ _ _ _ rfl ⟨rfl, rfl, rfl⟩ fun hok => Frame.ok_setByte hok hj v
  cases i
  case typeDataRaw | typeDataEnc | typeCommand | typeAck | typeNotice | typeReserved | sndSeq | sndXmit | sndData |
      sndCmd | sndCmdAck | sndAck | sndNotice | rcvListen => cases h
  case frmExtent | frmLd | frmMeta | expEnc => exact ⟨_, rfl, .read _ _ _⟩
  case hdrLen | hdrType | hdrEnc | hdrFrag | hdrAckReq | hdrId | hdrUnpack =>
    exact ⟨_, rfl, State.needHeader_holds (fun _ => .read _ _ _) (.error _)⟩
  case datGet | ntcGet => exact ⟨_, rfl, State.payloadWindow_holds (fun _ => .read _ _ _) (.error _) (.error _)⟩
  case cmdGetOp | ackGetOp | cmdGetParam | ackGetResp =>
    refine ⟨_, rfl, State.payloadWindow_holds (fun _ => ?_) (.error _) (.error _)⟩
    split
    · exact .error _
    · exact .read _ _ _
  case hdrDispatch f =>
    refine ⟨_, rfl, State.needHeader_holds (fun _ => ?_) (.error _)⟩
    split
    · exact .error _
    · exact .read _ _ _
  case expDec b =>
    refine ⟨_, rfl, ?_⟩
    split
    · exact .error _
    · split
      · exact .error _
      · exact .read _ _ _
  case frmClear f => exact ⟨_, rfl, .write f _ _ _ _ rfl (Frame.sameMeta_clear _) fun _ => Frame.ok_clear _⟩
  case frmPut f b =>
    refine ⟨_, rfl, ?_⟩
    split
    · exact .write f _ _ _ _ rfl (Frame.sameMeta_put _ b) fun hok => Frame.ok_put hok b
    · exact .read _ _ _
  case frmGet f =>
    refine ⟨_, rfl, ?_⟩
    split
    · next hlt =>
      have hle : cursor ((s.frame f).rd.val + 1) ≤ (s.frame f).wr := Nat.le_trans (Nat.min_le_left _ _) hlt
      exact .write f _ _ _ _ rfl ⟨rfl, rfl, rfl⟩ fun hok => Frame.ok_setRd hok hle
    · exact .read _ _ _
  case frmResetLen f n => exact ⟨_, rfl, .write f _ _ _ _ rfl ⟨rfl, rfl, rfl⟩ fun hok => Frame.ok_resetLen hok _⟩
  case frmSt f k v => exact ⟨_, rfl, hset f 0 v k.toNat k.isLt⟩
  case hdrReset f n =>
    exact ⟨_, rfl, .write f _ _ _ _ rfl ⟨rfl, rfl, rfl⟩ fun _ => Frame.ok_resetLen (Frame.ok_clear _) _⟩
  case hdrSetLen f v =>
    refine ⟨_, rfl, State.needHeader_holds (fun _ => ?_) (.error _)⟩
    split
    · exact .error _
    · exact hset f v v 0 (by decide)
  case hdrSetId f v => exact ⟨_, rfl, State.needHeader_holds (fun _ => hset f v v 2 (by decide)) (.error _)⟩
  case hdrSetType f _ | hdrSetEnc f _ | hdrSetFrag f _ | hdrSetAckReq f _ =>
    exact ⟨_, rfl, State.needHeader_holds
      (fun _ => .write f _ _ _ _ rfl ⟨rfl, rfl, rfl⟩ fun hok => Frame.ok_mapByte1 hok _) (.error _)⟩
  case hdrUpdLen f =>
    exact ⟨_, rfl, State.needHeader_holds
      (fun _ => .write f _ _ _ _ rfl ⟨rfl, rfl, rfl⟩ fun hok => Frame.ok_updLen hok) (.error _)⟩
  case hdrPack f len flags type id =>
    refine ⟨_, rfl, State.needHeader_holds (fun _ => ?_) (.error _)⟩
    split
    · exact .error _
    · split
      · exact .error _
      · exact .write f _ _ _ _ rfl ⟨rfl, rfl, rfl⟩ fun hok => Frame.ok_store hok (by simp [hdrPack])
  case datSetRaw f b => exact ⟨_, rfl, .write f _ _ _ _ rfl (Frame.sameMeta_setRaw _ b) fun hok => Frame.ok_setRaw hok b⟩
  case datSetEnc f b =>
    exact ⟨_, rfl, .write f _ _ _ _ rfl (Frame.sameMeta_setEncoded _ b) fun hok => Frame.ok_setEncoded hok b⟩
  case datDecode f =>
    refine ⟨_, rfl, State.needHeader_holds (fun _ => ?_) (.error _)⟩
    split
    · refine State.payloadWindow_holds (fun _ => ?_) (.error _) (.error _)
      unfold decodeInPlace
      split
      · exact .error _
      · split
        · exact .error _
        · next d _ hd =>
          exact .write f _ _ _ _ rfl (Frame.sameMeta_setDecoded _ d) fun hok => Frame.ok_setDecoded hok (Nat.not_lt.1 hd)
    · exact .read _ _ _
  case cmdSetOp f op | ackSetOp f op =>
    exact ⟨_, rfl, .write f _ _ _ _ rfl (Frame.sameMeta_setOpcode _ op) fun hok => Frame.ok_setOpcode hok op⟩
  case cmdSetParam f b | ackSetResp f b =>
    exact ⟨_, rfl, .write f _ _ _ _ rfl (Frame.sameMeta_setString _ b) fun hok => Frame.ok_setString hok b⟩
  case ntcSet f b =>
    exact ⟨_, rfl, .write f _ _ _ _ rfl (Frame.sameMeta_setNotice _ b) fun hok => Frame.ok_setNotice hok b⟩

section
variable {s t : State} {f : Option FrameSel}

/-- Whatever the end, no other frame is touched and the metadata of every frame stay. -/
theorem frameOpEnds_frame (h : frameOpEnds f s t) (g : FrameSel) :
    (f ≠ some g → t.frame g = s.frame g) ∧ (s.frame g).sameMeta (t.frame g) := by
  cases h with
  | error c => exact ⟨fun _ => s.raise_frame c 0 false g, Frame.sameMeta_refl _⟩
  | read v o b => rw [State.answer_frame]; exact ⟨fun _ => rfl, Frame.sameMeta_refl _⟩
  | write g' x v o b hf hmeta hok =>
    rw [State.answer_frame, State.frame_setFrame_eq]
    split
    · next hg => exact ⟨fun hne => absurd (hf.trans (congrArg some hg.symm)) hne, hg ▸ hmeta⟩
    · exact ⟨fun _ => rfl, Frame.sameMeta_refl _⟩

/-- Whatever the end, the sender, the receiver's registers and the environment stay. -/
theorem frameOpEnds_rest (h : frameOpEnds f s t) : t.txf = s.txf ∧ s.sameRegisters t ∧ s.sameEnvironment t := by
  cases h with
  | error c => exact (s.onlyResult_raise c 0 false).2.2
  | read v o b => exact (s.onlyResult_answer v o b).2.2
  | write g x v o b => exact (s.onlyFrame_setFrame_answer g x v o b).2

/-- An end with an error has changed nothing but the result. -/
theorem frameOpEnds_onlyResult (h : frameOpEnds f s t) (herr : ∃ r, t.result = some r ∧ r.status ≠ .ok) :
    s.onlyResult t := by
  obtain ⟨r, hr, hstatus⟩ := herr
  cases h with
  | error c => exact s.onlyResult_raise c 0 false
  | read v o b => exact s.onlyResult_answer v o b
  | write g x v o b =>
    obtain rfl : okResult v o b = r := Option.some.inj hr
    exact absurd rfl hstatus

end

/-- Settles O13, from the three ways such an operation can end. -/
theorem frameOpsTouchOnlyTheirFrame : Obligations.FrameOpsTouchOnlyTheirFrame := by
  intro i s hop
  obtain ⟨t, hexec, hend⟩ := exec_frameOp hop s
  exact ⟨t, hexec, fun g => (frameOpEnds_frame hend g).1, fun g => (frameOpEnds_frame hend g).2, frameOpEnds_rest hend⟩

/-- Settles O14, from the three ways such an operation can end. -/
theorem errorsChangeNothing : Obligations.ErrorsChangeNothing := by
  intro i s t hop hexec herr
  obtain ⟨u, hu, hend⟩ := exec_frameOp hop s
  obtain rfl : u = t := Host.Outcome.next.inj (hu.symm.trans hexec)
  exact frameOpEnds_onlyResult hend herr

end Sys2Proof.Machine
end

section
/-! The frame operations (R100 to R108) and `HDR.RESET` (R120). -/

namespace Sys2Proof.Machine

/-! ### One byte written -/

theorem Frame.sameBytesOutside_setByte (x : Frame) (i : Nat) (v : BitVec 8) :
    x.sameBytesOutside (x.setByte i v) i (i + 1) :=
  fun _ ha => x.byte_setByte_other v (by omega)

theorem Frame.byte_setByte_same {x : Frame} (hok : x.ok = true) (i : Nat) (v : BitVec 8) : (x.setByte i v).byte i = v := by
  rw [Frame.byte_setByte (Frame.ok_wf hok), if_pos rfl]

/-- An answer with a frame whose storage alone is new. -/
theorem State.rewrites_setFrame_answer (s : State) (f : FrameSel) {x : Frame} (v : Nat)
    (hmeta : (s.frame f).sameMeta x) (hwr : x.wr = (s.frame f).wr) (hrd : x.rd = (s.frame f).rd) :
    s.rewrites ((s.setFrame f x).answer v) f v := by
  refine ⟨s.onlyFrame_setFrame_answer f x v [] false, ?_⟩
  rw [State.answer_frame, State.frame_setFrame]
  exact ⟨hmeta, hwr, hrd, rfl⟩

/-- Settles O19: a byte to read, or none. -/
theorem frmGet : Obligations.FrmGet := by
  intro f s
  by_cases hlt : (s.frame f).rd.val < (s.frame f).wr.val
  · have hexec : exec (.frmGet f) s = .next
        ((s.setFrame f { s.frame f with rd := cursor ((s.frame f).rd.val + 1) }).answer 1
          [(s.frame f).byte (s.frame f).rd.val]) := congrArg Host.Outcome.next (if_pos (Fin.lt_def.2 hlt))
    refine ⟨_, hexec, s.onlyFrame_setFrame_answer f _ _ _ _, ?_⟩
    rw [if_pos hlt, State.answer_frame, State.frame_setFrame]
    refine ⟨⟨rfl, rfl, rfl⟩, rfl, rfl, rfl, ?_⟩
    rw [cursor_val]
    omega
  · have hexec : exec (.frmGet f) s = .next (s.answer 0) :=
      congrArg Host.Outcome.next (if_neg (mt Fin.lt_def.1 hlt))
    refine ⟨_, hexec, State.onlyFrame_of_onlyResult f (s.onlyResult_answer 0 [] false), ?_⟩
    rw [if_neg hlt, State.answer_frame]
    exact ⟨Frame.sameMeta_refl _, rfl, rfl, rfl, rfl⟩

/-- The read cursor after the clamp of R103, as a number. -/
theorem Frame.rd_resetLen (x : Frame) (n : Nat) : (x.resetLen n).rd.val = min x.rd.val (min n 64) := by
  rw [Frame.resetLen_rd, Fin.coe_min, cursor_val]

/-- Settles O20. -/
theorem frmResetLen : Obligations.FrmResetLen := by
  intro f n s
  refine ⟨_, rfl, s.onlyFrame_setFrame_answer f _ _ _ _, ?_⟩
  rw [State.answer_frame, State.frame_setFrame]
  exact ⟨⟨rfl, rfl, rfl⟩, rfl, rfl, Frame.rd_resetLen _ _, rfl⟩

/-- Settles O21: the three only answer. -/
theorem frmReads : Obligations.FrmReads := by
  intro f s
  refine ⟨⟨_, rfl, s.onlyResult_answer _ _ _, rfl⟩, fun i => ⟨_, rfl, s.onlyResult_answer _ _ _, rfl⟩,
    _, rfl, s.onlyResult_answer _ _ _, ?_⟩
  have hhigh : (s.frame f).moduleId.extractLsb' 8 8 = BitVec.ofNat 8 ((s.frame f).moduleId.toNat / 256) := by
    apply BitVec.eq_of_toNat_eq
    rw [BitVec.extractLsb'_toNat, BitVec.toNat_ofNat, Nat.shiftRight_eq_div_pow]
  have hlow : (s.frame f).moduleId.extractLsb' 0 8 = BitVec.ofNat 8 ((s.frame f).moduleId.toNat % 256) := by
    apply BitVec.eq_of_toNat_eq
    rw [BitVec.extractLsb'_toNat, BitVec.toNat_ofNat, Nat.shiftRight_zero]
    omega
  rw [State.answer_result, hhigh, hlow]

/-- Settles O22, by the rule of one written byte. -/
theorem frmSt : Obligations.FrmSt := by
  intro f i v s hok
  refine ⟨_, rfl, s.rewrites_setFrame_answer f 0 ⟨rfl, rfl, rfl⟩ rfl rfl, ?_⟩
  rw [State.answer_frame, State.frame_setFrame]
  exact ⟨Frame.byte_setByte_same hok _ v, Frame.sameBytesOutside_setByte _ _ v⟩

/-- Settles O25: a cleared frame, for `HDR.RESET` with its extent set behind the header. -/
theorem clearAndReset : Obligations.ClearAndReset := by
  intro f n s
  constructor
  · refine ⟨_, rfl, s.onlyFrame_setFrame_answer f _ _ _ _, ?_⟩
    rw [State.answer_frame, State.frame_setFrame]
    exact ⟨fun _ => rfl, rfl, rfl, Frame.sameMeta_clear _, rfl⟩
  · refine ⟨_, rfl, s.onlyFrame_setFrame_answer f _ _ _ _, ?_⟩
    have hstored : (((s.frame f).clear.resetLen (3 + n.toNat)).wr.val - 3) = min n.toNat 61 := by
      rw [Frame.resetLen_wr, cursor_val]
      omega
    have hcut : truncated (min n.toNat 61) n.toNat = decide (61 < n.toNat) := by
      rw [truncated, decide_eq_decide]
      omega
    rw [State.answer_frame, State.frame_setFrame, State.answer_result, hstored, hcut]
    refine ⟨fun _ => rfl, rfl, ?_, ⟨rfl, rfl, rfl⟩, rfl⟩
    rw [Frame.rd_resetLen]
    exact Nat.zero_min _

end Sys2Proof.Machine
end

section
/-! The header codec (R121, R128 to R137): the mutators write one field of one byte, packing and unpacking are inverse. -/

namespace Sys2Proof.Machine

/-! ### The fields as bits of a byte -/

/-- Setting bit `n` with the mask `m` that has only that bit, or clearing it with the mask that has all others. -/
theorem bitSet_masks {n : Nat} {m c : BitVec 8} (hm : ∀ k, k < 8 → m.getLsbD k = decide (k = n))
    (hc : ∀ k, k < 8 → c.getLsbD k = decide (k ≠ n)) (v : Bool) (b : BitVec 8) :
    bitSet n v b (if v then b ||| m else b &&& c) := by
  intro k hk
  cases v
  · rw [if_neg Bool.false_ne_true, BitVec.getLsbD_and, hc k hk]
    by_cases hkn : k = n <;> simp [hkn]
  · rw [if_pos rfl, BitVec.getLsbD_or, hm k hk]
    by_cases hkn : k = n <;> simp [hkn]

theorem bitSet_putEnc (v : Bool) (b : BitVec 8) : bitSet 5 v b (putEnc v b) := bitSet_masks (by decide) (by decide) v b

theorem bitSet_putFrag (v : Bool) (b : BitVec 8) : bitSet 4 v b (putFrag v b) := bitSet_masks (by decide) (by decide) v b

theorem bitSet_putAckReq (v : Bool) (b : BitVec 8) : bitSet 3 v b (putAckReq v b) :=
  bitSet_masks (by decide) (by decide) v b

/-- Replacing the type keeps bits 7 to 3 in front of it (R131). -/
theorem putType_eq_append (y : BitVec 3) (b : BitVec 8) : putType y b = b.extractLsb' 3 5 ++ y := by
  apply BitVec.eq_of_getLsbD_eq
  intro k hk
  have hmask : ∀ j, j < 8 → (0xF8 : BitVec 8).getLsbD j = decide (3 ≤ j) := by decide
  rw [putType, BitVec.getLsbD_or, BitVec.getLsbD_and, hmask k hk, BitVec.getLsbD_append, BitVec.getLsbD_setWidth,
    BitVec.getLsbD_extractLsb']
  by_cases hlow : k < 3
  · simp [hlow, hk]
  · have h5 : k - 3 < 5 := by omega
    have h3 : 3 + (k - 3) = k := by omega
    simp [hlow, h5, h3, Nat.not_lt.1 hlow]

theorem toNat_putType (y : BitVec 3) (b : BitVec 8) : (putType y b).toNat = b.toNat / 8 * 8 + y.toNat := by
  have := b.isLt
  rw [putType_eq_append, toNat_append_eq, BitVec.extractLsb'_toNat, Nat.shiftRight_eq_div_pow]
  omega

/-- Three bits of a byte in a row, as a number. -/
theorem toNat_threeBits (b : BitVec 8) (k : Nat) :
    (BitVec.ofBool (b.getLsbD (k + 2)) ++ BitVec.ofBool (b.getLsbD (k + 1)) ++ BitVec.ofBool (b.getLsbD k)).toNat =
      b.toNat / 2 ^ k % 8 := by
  have hbit : ∀ i, (BitVec.ofBool (b.getLsbD i)).toNat = b.toNat / 2 ^ i % 2 := fun i =>
    (BitVec.toNat_ofBool _).trans (Nat.toNat_testBit b.toNat i)
  rw [toNat_append_eq, toNat_append_eq, hbit, hbit, hbit, Nat.pow_add, Nat.pow_add, ← Nat.div_div_eq_div_mul,
    ← Nat.div_div_eq_div_mul]
  omega

theorem flagsByte_eq (b1 : BitVec 8) :
    flagsByte (encBit b1) (fragBit b1) (ackReqBit b1) = BitVec.ofNat 8 (b1.toNat / 8 % 8) := by
  apply BitVec.eq_of_toNat_eq
  rw [flagsByte, BitVec.toNat_setWidth, BitVec.toNat_ofNat]
  exact congrArg (· % 2 ^ 8) (toNat_threeBits b1 3)

/-- The bytes that unpacking returns, as arithmetic on the header's (R76, R128). -/
theorem hdrUnpack_eq (b0 b1 b2 : BitVec 8) : hdrUnpack b0 b1 b2 =
    [BitVec.ofNat 8 (b0.toNat % 64), BitVec.ofNat 8 (b1.toNat / 8 % 8), BitVec.ofNat 8 (b1.toNat % 8), b2] := by
  have hlen : (lengthBits b0).setWidth 8 = BitVec.ofNat 8 (b0.toNat % 64) := by
    apply BitVec.eq_of_toNat_eq
    rw [BitVec.toNat_setWidth, BitVec.toNat_ofNat, lengthBits, BitVec.extractLsb'_toNat, Nat.shiftRight_zero]
  have htype : (typeBits b1).setWidth 8 = BitVec.ofNat 8 (b1.toNat % 8) := by
    apply BitVec.eq_of_toNat_eq
    rw [BitVec.toNat_setWidth, BitVec.toNat_ofNat, toNat_typeBits]
  rw [hdrUnpack, hlen, flagsByte_eq, htype]

/-- Byte 1 of a packed header, from the flags and the type as the host gives them (R75, R137). -/
theorem toNat_packByte1 {flags type : BitVec 8} (hflags : flags.toNat ≤ 7) (htype : type.toNat ≤ 7) :
    (packByte1 (flags.getLsbD 2) (flags.getLsbD 1) (flags.getLsbD 0) (type.setWidth 3)).toNat =
      flags.toNat * 8 + type.toNat := by
  rw [packByte1, BitVec.toNat_setWidth, toNat_append_eq, toNat_threeBits flags 0, BitVec.toNat_setWidth]
  omega

theorem setWidth_length {len : BitVec 8} (hlen : len.toNat ≤ 63) : (len.setWidth 6).setWidth 8 = len := by
  apply BitVec.eq_of_toNat_eq
  rw [BitVec.toNat_setWidth, BitVec.toNat_setWidth]
  omega

/-! ### The instructions -/

/-- Settles O26: each of them checks for the header before anything else. -/
theorem mutatorsNeedHeader : Obligations.MutatorsNeedHeader := by
  intro f s i hmissing hi
  have hraise : ∀ k, exec i s = .next (s.needHeader f k) →
      ∃ t, exec i s = .next t ∧ s.onlyResult t ∧ t.result = some (errorResult .headerMissing 0) := fun k hexec =>
    ⟨_, hexec.trans (congrArg _ (State.needHeader_missing hmissing k)), s.onlyResult_raise _ _ _, rfl⟩
  obtain ⟨v, rfl⟩ | ⟨v, rfl⟩ | ⟨b, rfl⟩ | ⟨b, rfl⟩ | ⟨b, rfl⟩ | ⟨v, rfl⟩ | rfl | ⟨l, g, y, d, rfl⟩ | rfl := hi
  all_goals exact hraise _ rfl

/-- With a header an instruction that needs one does what follows the check. -/
theorem exec_of_header {f : FrameSel} {s : State} {i : Instr} {k : Frame → State} (hheader : 3 ≤ (s.frame f).wr.val)
    (hexec : exec i s = .next (s.needHeader f k)) : exec i s = .next (k (s.frame f)) :=
  hexec.trans (congrArg _ (State.needHeader_of_header hheader k))

/-- Settles O27: a length of six bits is stored, a longer one rejected. -/
theorem hdrSetLen : Obligations.HdrSetLen := by
  intro f v s hok hheader
  by_cases hv : v.toNat ≤ 63
  · refine ⟨_, (exec_of_header hheader rfl).trans (congrArg _ (if_neg (Nat.not_lt.2 hv))), ?_⟩
    rw [if_pos hv]
    refine ⟨s.rewrites_setFrame_answer f _ ⟨rfl, rfl, rfl⟩ rfl rfl, ?_⟩
    rw [State.answer_frame, State.frame_setFrame]
    exact ⟨Frame.byte_setByte_same hok 0 v, Frame.sameBytesOutside_setByte _ 0 v⟩
  · refine ⟨_, (exec_of_header hheader rfl).trans (congrArg _ (if_pos (Nat.not_le.1 hv))), ?_⟩
    rw [if_neg hv]
    exact ⟨s.onlyResult_raise _ _ _, rfl⟩

/-- A mutator of byte 1 rewrites that byte and no other. -/
theorem exec_mapByte1 {f : FrameSel} {s : State} {i : Instr} {g : BitVec 8 → BitVec 8} {v : Nat}
    (hok : (s.frame f).ok = true) (hheader : 3 ≤ (s.frame f).wr.val)
    (hexec : exec i s = .next (s.needHeader f fun x => (s.setFrame f (x.mapByte1 g)).answer v)) :
    ∃ t, exec i s = .next t ∧ s.rewrites t f v ∧ (t.frame f).byte 1 = g ((s.frame f).byte 1) ∧
      (s.frame f).sameBytesOutside (t.frame f) 1 2 := by
  refine ⟨_, exec_of_header hheader hexec, s.rewrites_setFrame_answer f v ⟨rfl, rfl, rfl⟩ rfl rfl, ?_⟩
  rw [State.answer_frame, State.frame_setFrame]
  exact ⟨Frame.byte_setByte_same hok 1 _, Frame.sameBytesOutside_setByte _ 1 _⟩

/-- Settles O28: the four rewrite byte 1, each with its own mask. -/
theorem hdrByte1Mutators : Obligations.HdrByte1Mutators := by
  intro f y b s hok hheader
  refine ⟨?_, ?_, ?_, ?_⟩
  · obtain ⟨t, hexec, hrest, hbyte, hsame⟩ := exec_mapByte1 (i := .hdrSetType f y) hok hheader rfl
    exact ⟨t, hexec, hrest, hbyte ▸ toNat_putType y _, hsame⟩
  · obtain ⟨t, hexec, hrest, hbyte, hsame⟩ := exec_mapByte1 (i := .hdrSetEnc f b) hok hheader rfl
    exact ⟨t, hexec, hrest, hbyte ▸ bitSet_putEnc b _, hsame⟩
  · obtain ⟨t, hexec, hrest, hbyte, hsame⟩ := exec_mapByte1 (i := .hdrSetFrag f b) hok hheader rfl
    exact ⟨t, hexec, hrest, hbyte ▸ bitSet_putFrag b _, hsame⟩
  · obtain ⟨t, hexec, hrest, hbyte, hsame⟩ := exec_mapByte1 (i := .hdrSetAckReq f b) hok hheader rfl
    exact ⟨t, hexec, hrest, hbyte ▸ bitSet_putAckReq b _, hsame⟩

/-- The `length` field after `updlen`, a number that fits in its byte (R130). -/
theorem Frame.toNat_byte_updLen {x : Frame} (hok : x.ok = true) : (x.updLen.byte 0).toNat = x.wr.val - 3 := by
  have := x.wr.isLt
  rw [Frame.byte_updLen (Frame.ok_wf hok), if_pos rfl, BitVec.toNat_ofNat]
  omega

theorem Frame.consistent_iff (x : Frame) : x.consistent = true ↔ 3 ≤ x.wr.val ∧ x.lengthField = x.wr.val - 3 := by
  simp [Frame.consistent]

/-- Settles O29: byte 2, and byte 0 as the payload extent. -/
theorem hdrSetIdAndUpdLen : Obligations.HdrSetIdAndUpdLen := by
  intro f v s hok hheader
  refine ⟨⟨_, exec_of_header hheader rfl, s.rewrites_setFrame_answer f _ ⟨rfl, rfl, rfl⟩ rfl rfl, ?_⟩,
    _, exec_of_header hheader rfl, s.rewrites_setFrame_answer f _ ⟨rfl, rfl, rfl⟩ rfl rfl, ?_⟩
  · rw [State.answer_frame, State.frame_setFrame]
    exact ⟨Frame.byte_setByte_same hok 2 v, Frame.sameBytesOutside_setByte _ 2 v⟩
  · rw [State.answer_frame, State.frame_setFrame]
    have hlen := Frame.toNat_byte_updLen hok
    have hcap := (s.frame f).wr.isLt
    refine ⟨hlen, (Frame.consistent_iff _).2 ⟨hheader, ?_⟩, Frame.sameBytesOutside_setByte _ 0 _⟩
    rw [Frame.lengthField_eq, hlen, Frame.updLen_wr]
    omega

/-- What `HDR.PACK` stores of a tuple of the domain (R75, R137). -/
theorem Frame.store_hdrPack {x : Frame} (hok : x.ok = true) {len flags type id : BitVec 8} (hlen : len.toNat ≤ 63)
    (hflags : flags.toNat ≤ 7) (htype : type.toNat ≤ 7) : ∃ y : Frame,
      y = x.store 0 (hdrPack (len.setWidth 6) (flags.getLsbD 2) (flags.getLsbD 1) (flags.getLsbD 0) (type.setWidth 3) id) ∧
      y.byte 0 = len ∧ (y.byte 1).toNat = flags.toNat * 8 + type.toNat ∧ y.byte 2 = id ∧ x.sameBytesOutside y 0 3 := by
  have hwf := Frame.ok_wf hok
  have hin : ∀ {s : List (BitVec 8)} {i : Nat} (hl : 0 + s.length ≤ 64) (hi : i < s.length), (x.store 0 s).byte i = s[i] :=
    fun hl hi => (congrArg _ (Nat.zero_add _).symm).trans (Frame.byte_store_inside hwf hl hi)
  refine ⟨_, rfl, (hin (i := 0) (by simp [hdrPack]) (by simp [hdrPack])).trans (setWidth_length hlen), ?_,
    hin (i := 2) (by simp [hdrPack]) (by simp [hdrPack]), fun a ha => x.byte_store_outside (by simpa [hdrPack] using ha)⟩
  rw [← toNat_packByte1 hflags htype]
  exact congrArg _ (hin (i := 1) (by simp [hdrPack]) (by simp [hdrPack]))

/-- `HDR.PACK` on a frame with a header and a tuple of the domain. -/
theorem exec_hdrPack {f : FrameSel} {s : State} {len flags type : BitVec 8} (id : BitVec 8)
    (hheader : 3 ≤ (s.frame f).wr.val) (hlen : len.toNat ≤ 63) (hflags : flags.toNat ≤ 7) (htype : type.toNat ≤ 7) :
    exec (.hdrPack f len flags type id) s = .next ((s.setFrame f ((s.frame f).store 0 (hdrPack (len.setWidth 6)
      (flags.getLsbD 2) (flags.getLsbD 1) (flags.getLsbD 0) (type.setWidth 3) id))).answer 0) :=
  (exec_of_header hheader rfl).trans (congrArg _ ((if_neg (Nat.not_lt.2 hlen)).trans
    (if_neg (not_or.2 ⟨Nat.not_lt.2 hflags, Nat.not_lt.2 htype⟩))))

theorem exec_hdrUnpack (f : FrameSel) (s : State) :
    s.readsHeader f (.hdrUnpack f) (((s.frame f).byte 0).toNat % 64)
      [BitVec.ofNat 8 (((s.frame f).byte 0).toNat % 64), BitVec.ofNat 8 (((s.frame f).byte 1).toNat / 8 % 8),
        BitVec.ofNat 8 (((s.frame f).byte 1).toNat % 8), (s.frame f).byte 2] := by
  rw [← hdrUnpack_eq, ← Frame.lengthField_eq]
  exact State.readsHeader_of_exec Frame.lengthField (fun x => hdrUnpack (x.byte 0) (x.byte 1) (x.byte 2)) rfl

/-- Settles O30: the checks in their order, then the three bytes; and the reader of all fields. -/
theorem hdrPackAndUnpack : Obligations.HdrPackAndUnpack := by
  intro f len flags type id s hok
  refine ⟨fun hheader => ?_, exec_hdrUnpack f s⟩
  by_cases hlen : 63 < len.toNat
  · refine ⟨_, (exec_of_header hheader rfl).trans (congrArg _ (if_pos hlen)), ?_⟩
    rw [if_pos hlen]
    exact ⟨s.onlyResult_raise _ _ _, rfl⟩
  · by_cases hfields : 7 < flags.toNat ∨ 7 < type.toNat
    · refine ⟨_, (exec_of_header hheader rfl).trans (congrArg _ ((if_neg hlen).trans (if_pos hfields))), ?_⟩
      rw [if_neg hlen, if_pos hfields]
      exact ⟨s.onlyResult_raise _ _ _, rfl⟩
    · obtain ⟨hflags, htype⟩ := not_or.1 hfields
      refine ⟨_, exec_hdrPack id hheader (Nat.not_lt.1 hlen) (Nat.not_lt.1 hflags) (Nat.not_lt.1 htype), ?_⟩
      rw [if_neg hlen, if_neg hfields, State.answer_frame, State.frame_setFrame]
      obtain ⟨y, rfl, hbytes⟩ :=
        Frame.store_hdrPack hok (id := id) (Nat.not_lt.1 hlen) (Nat.not_lt.1 hflags) (Nat.not_lt.1 htype)
      exact ⟨s.rewrites_setFrame_answer f 0 ⟨rfl, rfl, rfl⟩ rfl rfl, hbytes⟩

/-- Settles O31: unpacking takes apart what packing put into the three bytes. -/
theorem packThenUnpack : Obligations.PackThenUnpack := by
  intro f len flags type id s hok hheader hlen hflags htype
  obtain ⟨y, hy, hbyte0, hbyte1, hbyte2, -⟩ := Frame.store_hdrPack hok (id := id) hlen hflags htype
  obtain ⟨u, hexec, -, hres⟩ := exec_hdrUnpack f ((s.setFrame f y).answer 0)
  have hextent : 3 ≤ y.wr.val := hy ▸ hheader
  have hback : ∀ b : BitVec 8, BitVec.ofNat 8 b.toNat = b := fun b => by simp
  rw [State.answer_frame, State.frame_setFrame, if_pos hextent, hbyte0, hbyte1, hbyte2,
    show len.toNat % 64 = len.toNat by omega, show (flags.toNat * 8 + type.toNat) / 8 % 8 = flags.toNat by omega,
    show (flags.toNat * 8 + type.toNat) % 8 = type.toNat by omega, hback, hback, hback] at hres
  exact ⟨_, u, hy ▸ exec_hdrPack id hheader hlen hflags htype, hexec, hres⟩

end Sys2Proof.Machine
end

section
/-! The expansion codec (R190 to R196): it decodes what it encodes, and the size and the characters of its text. -/

namespace Sys2Proof.Machine

/-! ### Groups -/

/-- A last group without padding is a group like the others. -/
theorem decodeLastGroup_encoded (a b c : BitVec 8) :
    decodeLastGroup (alpha (sextet0 a)) (alpha (sextet1 a b)) (alpha (sextet2 b c)) (alpha (sextet3 c)) =
      some [a, b, c] := by
  rw [decodeLastGroup, if_neg (alpha_ne_padChar _), decodeGroup_encoded]

/-- A last group of two bytes, one pad character. -/
theorem decodeLastGroup_two (a b : BitVec 8) :
    decodeLastGroup (alpha (sextet0 a)) (alpha (sextet1 a b)) (alpha (sextet2 b 0)) padChar = some [a, b] := by
  simp [decodeLastGroup, alpha_ne_padChar, alphaIndex_alpha, octet0_sextets, octet1_sextets]

/-- A last group of one byte, two pad characters. -/
theorem decodeLastGroup_one (a : BitVec 8) :
    decodeLastGroup (alpha (sextet0 a)) (alpha (sextet1 a 0)) padChar padChar = some [a] := by
  simp [decodeLastGroup, alphaIndex_alpha, octet0_sextets]

/-- A group gives three bytes. -/
theorem length_decodeGroup {e0 e1 e2 e3 : BitVec 8} {g : List (BitVec 8)} (h : decodeGroup e0 e1 e2 e3 = some g) :
    g.length = 3 := by
  unfold decodeGroup at h
  split at h
  · cases h
    rfl
  · cases h

/-- The last group gives one to three bytes. -/
theorem length_decodeLastGroup {e0 e1 e2 e3 : BitVec 8} {g : List (BitVec 8)}
    (h : decodeLastGroup e0 e1 e2 e3 = some g) : 1 ≤ g.length ∧ g.length ≤ 3 := by
  unfold decodeLastGroup at h
  split at h
  · split at h
    · split at h <;> cases h
      exact ⟨Nat.le_refl 1, Nat.le_add_left 1 2⟩
    · split at h <;> cases h
      exact ⟨Nat.le_add_left 1 1, Nat.le_add_left 2 1⟩
  · rw [length_decodeGroup h]
    exact ⟨by decide, by decide⟩

/-! ### Strings -/

/-- The law L1 of R190, group by group from the front; the last group is the one with nothing behind it. -/
theorem expDecode_expEncode : ∀ p : List (BitVec 8), expDecode (expEncode p) = some p
  | [] => rfl
  | [a] => decodeLastGroup_one a
  | [a, b] => decodeLastGroup_two a b
  | a :: b :: c :: r => by
    have ih := expDecode_expEncode r
    rw [expEncode, expDecode]
    by_cases hr : expEncode r = []
    · obtain rfl : [] = r := by rwa [hr, expDecode, Option.some.injEq] at ih
      rw [if_pos hr, decodeLastGroup_encoded]
    · rw [if_neg hr, decodeGroup_encoded, ih]
      rfl

/-- Settles O42. -/
theorem codecRoundTrip : Obligations.CodecRoundTrip := expDecode_expEncode

/-- What decodes has whole groups, each of which gives three bytes but the last, which gives one to three (R192). -/
theorem length_expDecode : ∀ {e d : List (BitVec 8)}, expDecode e = some d →
    e.length % 4 = 0 ∧ d.length ≤ 3 * (e.length / 4) ∧ 3 * (e.length / 4) ≤ d.length + 2
  | [], d, h => by
    cases h
    decide
  | [_], _, h | [_, _], _, h | [_, _, _], _, h => by cases h
  | e0 :: e1 :: e2 :: e3 :: r, d, h => by
    rw [expDecode] at h
    simp only [List.length_cons]
    split at h
    · next hr =>
      have hlast := length_decodeLastGroup h
      rw [hr, List.length_nil]
      omega
    · split at h
      · next g d' hg hd =>
        cases h
        have hgroup := length_decodeGroup hg
        have ih := length_expDecode hd
        rw [List.length_append, hgroup]
        omega
      · cases h

/-- Every character of an encoding is one of the alphabet or the pad character (R193). -/
theorem mem_expEncode : ∀ {p : List (BitVec 8)} {c : BitVec 8}, c ∈ expEncode p → c = padChar ∨ ∃ v, c = alpha v
  | [], c, h => by cases h
  | [a], c, h => by
    simp only [expEncode, List.mem_cons, List.not_mem_nil, or_false] at h
    obtain rfl | rfl | rfl | rfl := h
    exacts [.inr ⟨_, rfl⟩, .inr ⟨_, rfl⟩, .inl rfl, .inl rfl]
  | [a, b], c, h => by
    simp only [expEncode, List.mem_cons, List.not_mem_nil, or_false] at h
    obtain rfl | rfl | rfl | rfl := h
    exacts [.inr ⟨_, rfl⟩, .inr ⟨_, rfl⟩, .inr ⟨_, rfl⟩, .inl rfl]
  | a :: b :: c' :: r, c, h => by
    simp only [expEncode, List.mem_cons] at h
    obtain rfl | rfl | rfl | rfl | h := h
    exacts [.inr ⟨_, rfl⟩, .inr ⟨_, rfl⟩, .inr ⟨_, rfl⟩, .inr ⟨_, rfl⟩, mem_expEncode h]

/-- A byte that is neither the pad character nor in the alphabet is in no encoding. -/
theorem not_mem_expEncode {c : BitVec 8} (hpad : c ≠ padChar) (halpha : ∀ v, c ≠ alpha v) (p : List (BitVec 8)) :
    c ∉ expEncode p := by
  intro h
  obtain h | ⟨v, h⟩ := mem_expEncode h
  · exact hpad h
  · exact halpha v h

/-- Settles O43: the characters, the size, and the groups of what decodes. -/
theorem codecText : Obligations.CodecText := by
  refine ⟨fun p => ⟨not_mem_expEncode (by decide) (by decide) p, not_mem_expEncode (by decide) (by decide) p,
    not_mem_expEncode (by decide) (by decide) p, not_mem_expEncode (by decide) (by decide) p, fun hp => ?_⟩,
    fun e d h => length_expDecode h⟩
  rw [length_expEncode]
  omega

/-! ### Counts and the truncation indicator (R29, R308) -/

/-- The string that a capacity leaves. -/
theorem take_min_length (b : List (BitVec 8)) (n : Nat) : b.take (min b.length n) = b.take n := by
  rw [Nat.min_comm, ← List.take_eq_take_min]

theorem truncated_min (l n : Nat) : truncated (min l n) l = decide (n < l) := by
  rw [truncated, decide_eq_decide]
  omega

/-- Settles O41: the two only answer, with the codec's functions. -/
theorem expOperations : Obligations.ExpOperations := by
  intro b s
  constructor
  · refine ⟨_, rfl, s.onlyResult_answer _ _ _, ?_⟩
    rw [State.answer_result, encCount, take_min_length, truncated_min, Config.maxRawEnc]
  · cases hd : expDecode b with
    | none =>
      have hexec : exec (.expDec b) s = .next (s.raise .badEncoding) := congrArg Host.Outcome.next (by rw [hd])
      exact ⟨_, hexec, s.onlyResult_raise _ _ _, rfl⟩
    | some d =>
      have hexec : exec (.expDec b) s =
          .next (if 45 < d.length then s.raise .decodedTooLong else s.answer d.length d) :=
        congrArg Host.Outcome.next (by rw [hd]; rfl)
      refine ⟨_, hexec, ?_⟩
      show _ ∧ _ = some (if 45 < d.length then errorResult .decodedTooLong 0 else okResult d.length d false)
      by_cases hlong : 45 < d.length
      · rw [if_pos hlong, if_pos hlong]
        exact ⟨s.onlyResult_raise _ _ _, rfl⟩
      · rw [if_neg hlong, if_neg hlong]
        exact ⟨s.onlyResult_answer _ _ _, rfl⟩

end Sys2Proof.Machine
end

section
/-! The payload setters of the variants (R151, R152, R155, R157, R165, R168): what each stores, as one frame with a string at
the end of its payload. -/

namespace Sys2Proof.Machine

/-! ### A string at the end of the payload -/

theorem Frame.wf_resetLen_store {x : Frame} (hok : x.ok = true) {a : Nat} {p : List (BitVec 8)} (hl : a + p.length ≤ 64) :
    Mem.wf ((x.store a p).resetLen (a + p.length)).buf = true := Frame.wf_store (Frame.ok_wf hok) hl

/-- A frame that agrees off byte 1 with a string stored and the extent set behind it has that payload once `length` is
updated, and keeps its byte 1. -/
theorem Frame.payloadSet_updLen {x z : Frame} (hok : x.ok = true) {a : Nat} {p : List (BitVec 8)} (ha : 3 ≤ a)
    (hl : a + p.length ≤ 64) (hwr : z.wr = cursor (a + p.length)) (hrd : z.rd = min x.rd z.wr)
    (hmeta : x.sameMeta z) (hwf : Mem.wf z.buf = true) (hbytes : ∀ c, c ≠ 1 → z.byte c = (x.store a p).byte c) :
    x.payloadSet z.updLen a p ∧ z.updLen.byte 1 = z.byte 1 := by
  have hextent : z.wr.val = a + p.length := by
    rw [hwr, cursor_val]
    omega
  have hbyte : ∀ c, c ≠ 0 → c ≠ 1 → z.updLen.byte c = (x.store a p).byte c := fun c h0 h1 => by
    rw [Frame.byte_updLen hwf, if_neg h0, hbytes c h1]
  have hstored : z.updLen.bytes a p.length = (x.store a p).bytes a p.length :=
    Frame.bytes_congr fun i hlo _ => hbyte i (by omega) (by omega)
  refine ⟨⟨hextent, ?_, ?_, ?_, fun c h0 h1 hout => ?_, hmeta⟩, ?_⟩
  · rw [Frame.updLen_rd, Frame.updLen_wr, hrd, Fin.coe_min]
  · rw [Frame.byte_updLen hwf, if_pos rfl, hextent]
  · rw [hstored, Frame.bytes_store (Frame.ok_wf hok) hl]
  · rw [hbyte c h0 h1, x.byte_store_outside hout]
  · rw [Frame.byte_updLen hwf, if_neg (by decide)]

/-- A string stored, the extent set behind it, `length` updated: byte 1 is not written. -/
theorem Frame.payloadSet_store {x : Frame} (hok : x.ok = true) {a : Nat} {p : List (BitVec 8)} (ha : 3 ≤ a)
    (hl : a + p.length ≤ 64) : x.payloadSet (((x.store a p).resetLen (a + p.length)).updLen) a p ∧
      (((x.store a p).resetLen (a + p.length)).updLen).byte 1 = x.byte 1 := by
  obtain ⟨hset, hbyte1⟩ := Frame.payloadSet_updLen (z := (x.store a p).resetLen (a + p.length)) hok ha hl rfl rfl
    ⟨rfl, rfl, rfl⟩ (Frame.wf_resetLen_store hok hl) fun c _ => Frame.byte_resetLen _ _ c
  exact ⟨hset, hbyte1.trans (x.byte_store_outside (by omega))⟩

/-- The same with byte 1 rewritten on the way. -/
theorem Frame.payloadSet_mapByte1 {x : Frame} (hok : x.ok = true) (g : BitVec 8 → BitVec 8) {a : Nat}
    {p : List (BitVec 8)} (ha : 3 ≤ a) (hl : a + p.length ≤ 64) :
    x.payloadSet ((((x.store a p).resetLen (a + p.length)).mapByte1 g).updLen) a p ∧
      ((((x.store a p).resetLen (a + p.length)).mapByte1 g).updLen).byte 1 = g (x.byte 1) := by
  have hwf := Frame.wf_resetLen_store hok hl
  obtain ⟨hset, hbyte1⟩ := Frame.payloadSet_updLen (z := ((x.store a p).resetLen (a + p.length)).mapByte1 g) hok ha hl
    rfl rfl ⟨rfl, rfl, rfl⟩ (Frame.wf_setByte hwf (by decide) _) fun c hc => Frame.byte_setByte_other _ _ hc
  refine ⟨hset, hbyte1.trans ?_⟩
  rw [Frame.byte_mapByte1 hwf, if_pos rfl, Frame.byte_resetLen, x.byte_store_outside (by omega)]

/-! ### The setters in that form -/

theorem Frame.setRaw_eq (x : Frame) (b : List (BitVec 8)) : x.setRaw b =
    (((x.store 3 (b.take 61)).resetLen (3 + (b.take 61).length)).mapByte1 (putEnc false)).updLen := by
  rw [Frame.setRaw, rawCount, take_min_length, List.length_take, Nat.min_comm]
  rfl

theorem Frame.setEncoded_eq (x : Frame) (b : List (BitVec 8)) : x.setEncoded b =
    (((x.store 3 (expEncode (b.take 45))).resetLen (3 + (expEncode (b.take 45)).length)).mapByte1
      (putEnc true)).updLen := by
  rw [Frame.setEncoded, encCount, take_min_length]
  rfl

theorem Frame.setString_eq (x : Frame) (b : List (BitVec 8)) : x.setString b =
    ((x.store 4 (b.take 60)).resetLen (4 + (b.take 60).length)).updLen := by
  rw [Frame.setString, paramCount, take_min_length, List.length_take, Nat.min_comm, Frame.setExtent, ← Nat.add_assoc]
  rfl

theorem Frame.setNotice_eq (x : Frame) (b : List (BitVec 8)) : x.setNotice b =
    ((x.store 3 (b.take 61)).resetLen (3 + (b.take 61).length)).updLen := by
  rw [Frame.setNotice, noticeCount, take_min_length, List.length_take, Nat.min_comm]
  rfl

theorem length_take_le (n : Nat) (b : List (BitVec 8)) : (b.take n).length ≤ n :=
  (List.length_take ..).trans_le (Nat.min_le_left _ _)

theorem length_expEncode_le (b : List (BitVec 8)) : (expEncode (b.take 45)).length ≤ 60 := by
  have := length_take_le 45 b
  rw [length_expEncode]
  omega

section
variable {x : Frame} (hok : x.ok = true)
include hok

theorem Frame.payloadSet_setRaw (b : List (BitVec 8)) :
    x.payloadSet (x.setRaw b) 3 (b.take 61) ∧ (x.setRaw b).byte 1 = putEnc false (x.byte 1) := by
  have := length_take_le 61 b
  rw [Frame.setRaw_eq]
  exact Frame.payloadSet_mapByte1 hok _ (Nat.le_refl 3) (by omega)

theorem Frame.payloadSet_setEncoded (b : List (BitVec 8)) :
    x.payloadSet (x.setEncoded b) 3 (expEncode (b.take 45)) ∧ (x.setEncoded b).byte 1 = putEnc true (x.byte 1) := by
  have := length_expEncode_le b
  rw [Frame.setEncoded_eq]
  exact Frame.payloadSet_mapByte1 hok _ (Nat.le_refl 3) (by omega)

theorem Frame.payloadSet_setDecoded {d : List (BitVec 8)} (hd : d.length ≤ 45) :
    x.payloadSet (x.setDecoded d) 3 d ∧ (x.setDecoded d).byte 1 = putEnc false (x.byte 1) :=
  Frame.payloadSet_mapByte1 hok _ (Nat.le_refl 3) (by omega)

theorem Frame.payloadSet_setString (b : List (BitVec 8)) :
    x.payloadSet (x.setString b) 4 (b.take 60) ∧ (x.setString b).byte 1 = x.byte 1 := by
  have := length_take_le 60 b
  rw [Frame.setString_eq]
  exact Frame.payloadSet_store hok (by decide) (by omega)

theorem Frame.payloadSet_setNotice (b : List (BitVec 8)) :
    x.payloadSet (x.setNotice b) 3 (b.take 61) ∧ (x.setNotice b).byte 1 = x.byte 1 := by
  have := length_take_le 61 b
  rw [Frame.setNotice_eq]
  exact Frame.payloadSet_store hok (Nat.le_refl 3) (by omega)

/-- Every byte of a frame whose opcode is set but 0 and 3 is as before, byte 3 is the opcode (R155, R160). -/
theorem Frame.byte_setOpcode (op : BitVec 8) (a : Nat) : (x.setOpcode op).byte a =
    if a = 0 then BitVec.ofNat 8 ((x.setOpcode op).wr.val - 3) else if a = 3 then op else x.byte a := by
  have hlong : ∀ z : Frame, Mem.wf z.buf = true → z.byte a = x.byte a → (z.setByte 3 op).updLen.byte a =
      if a = 0 then BitVec.ofNat 8 ((z.setByte 3 op).updLen.wr.val - 3) else if a = 3 then op else x.byte a := by
    intro z hwf hbyte
    rw [Frame.byte_updLen (Frame.wf_setByte hwf (by decide) op), Frame.byte_setByte hwf, hbyte]
    rfl
  unfold Frame.setOpcode
  split
  · exact hlong _ (Frame.ok_wf (Frame.ok_resetLen hok 4)) rfl
  · exact hlong _ (Frame.ok_wf hok) rfl

/-- The read cursor stays: it was at or below an extent that can only grow. -/
theorem Frame.rd_setOpcode (op : BitVec 8) : (x.setOpcode op).rd = x.rd := by
  have hcursors := Frame.ok_cursors hok
  unfold Frame.setOpcode
  split
  · next hshort =>
    refine min_eq_left (le_trans hcursors ?_)
    rw [Fin.le_def, cursor_val]
    omega
  · rfl

end

/-! ### The setting instructions -/

/-- Settles O32. -/
theorem datSetRaw : Obligations.DatSetRaw := by
  intro f b s hok
  obtain ⟨hset, hbyte1⟩ := Frame.payloadSet_setRaw hok b
  refine ⟨_, rfl, s.onlyFrame_setFrame_answer f _ _ _ _, ?_⟩
  rw [State.answer_frame, State.frame_setFrame, hbyte1, State.answer_result, rawCount, truncated_min]
  exact ⟨hset, bitSet_putEnc false _, rfl⟩

/-- Settles O33. -/
theorem datSetEnc : Obligations.DatSetEnc := by
  intro f b s hok
  obtain ⟨hset, hbyte1⟩ := Frame.payloadSet_setEncoded hok b
  refine ⟨_, rfl, s.onlyFrame_setFrame_answer f _ _ _ _, ?_⟩
  rw [State.answer_frame, State.frame_setFrame, hbyte1, State.answer_result, encCount, truncated_min]
  exact ⟨hset, bitSet_putEnc true _, rfl⟩

/-- Settles O36: both instructions store the opcode in the same way. -/
theorem setOpcode : Obligations.SetOpcode := by
  intro f op s i hok hi
  have hexec : exec i s = .next ((s.setFrame f ((s.frame f).setOpcode op)).answer op.toNat) := by
    obtain rfl | rfl := hi <;> rfl
  refine ⟨_, hexec, s.onlyFrame_setFrame_answer f _ _ _ _, ?_⟩
  have hcap := ((s.frame f).setOpcode op).wr.isLt
  rw [State.answer_frame, State.frame_setFrame]
  refine ⟨Frame.sameMeta_setOpcode _ op, Frame.wr_setOpcode _ op, Frame.rd_setOpcode hok op, ?_, ?_, fun a h0 h3 => ?_,
    rfl⟩
  · rw [Frame.byte_setOpcode hok, if_neg (by decide), if_pos rfl]
  · rw [Frame.byte_setOpcode hok, if_pos rfl, BitVec.toNat_ofNat]
    omega
  · rw [Frame.byte_setOpcode hok, if_neg h0, if_neg h3]

/-- The two setters of a string behind the opcode do the same. -/
theorem exec_setString {f : FrameSel} {b : List (BitVec 8)} {i : Instr} (hi : i = .cmdSetParam f b ∨ i = .ackSetResp f b)
    (s : State) : exec i s = .next ((s.setFrame f ((s.frame f).setString b)).answer (paramCount b.length) []
      (truncated (paramCount b.length) b.length)) := by
  obtain rfl | rfl := hi <;> rfl

/-- Settles O37. -/
theorem setString : Obligations.SetString := by
  intro f b s i hok hi
  obtain ⟨hset, hbyte1⟩ := Frame.payloadSet_setString hok b
  refine ⟨_, exec_setString hi s, s.onlyFrame_setFrame_answer f _ _ _ _, ?_⟩
  rw [State.answer_frame, State.frame_setFrame, State.answer_result, paramCount, truncated_min]
  exact ⟨hset, hbyte1, rfl⟩

/-- Settles O38. -/
theorem ntcSet : Obligations.NtcSet := by
  intro f b s hok
  obtain ⟨hset, hbyte1⟩ := Frame.payloadSet_setNotice hok b
  refine ⟨_, rfl, s.onlyFrame_setFrame_answer f _ _ _ _, ?_⟩
  rw [State.answer_frame, State.frame_setFrame, State.answer_result, noticeCount, truncated_min]
  exact ⟨hset, hbyte1, rfl⟩

end Sys2Proof.Machine
end

section
/-! The getters of the variants (R150, R154, R156, R158, R161, R163, R166) and what they give back of what was set. -/

namespace Sys2Proof.Machine

/-! ### The payload window -/

/-- An instruction behind the window check reads the payload, if what follows the check only gives a result. -/
theorem State.readsPayload_of_exec {s : State} {f : FrameSel} {i : Instr} {k : Frame → Nat → State} {r : Nat → Result}
    (hexec : exec i s = .next (s.payloadWindow f k))
    (hk : s.onlyResult (k (s.frame f) (s.frame f).lengthField) ∧
      (k (s.frame f) (s.frame f).lengthField).result = some (r (s.frame f).lengthField)) : s.readsPayload f i r := by
  refine ⟨_, hexec, ?_⟩
  unfold State.windowResult
  rw [← Frame.lengthField_eq]
  obtain ⟨hin, e⟩ | ⟨hmissing, e⟩ | ⟨hheader, hout, e⟩ := s.payloadWindow_cases f k
  · rw [e, if_neg (by omega), if_neg (by omega)]
    exact hk
  · rw [e, if_pos hmissing]
    exact ⟨s.onlyResult_raise _ _ _, rfl⟩
  · rw [e, if_neg (by omega), if_pos hout]
    exact ⟨s.onlyResult_raise _ _ _, rfl⟩

/-- A Command or Ack without its opcode byte has nothing to give (R156, R158, R161, R163). -/
theorem State.emptyPayload_or_answer (s : State) (n v : Nat) (o : List (BitVec 8)) :
    s.onlyResult (if n = 0 then s.raise .emptyPayload else s.answer v o) ∧
      (if n = 0 then s.raise .emptyPayload else s.answer v o).result =
        some (if n = 0 then errorResult .emptyPayload 0 else okResult v o false) := by
  split
  · exact ⟨s.onlyResult_raise _ _ _, rfl⟩
  · exact ⟨s.onlyResult_answer _ _ _, rfl⟩

/-- The getters of whole payloads, with or without a terminator. -/
theorem exec_datGet (f : FrameSel) (s : State) :
    s.readsPayload f (.datGet f) (fun n => okResult n ((s.frame f).bytes 3 n) false) :=
  State.readsPayload_of_exec (k := fun x n => s.answer n x.payload) rfl ⟨s.onlyResult_answer _ _ _, rfl⟩

theorem exec_ntcGet (f : FrameSel) (s : State) :
    s.readsPayload f (.ntcGet f) (fun n => okResult n ((s.frame f).bytes 3 n ++ [0]) false) :=
  State.readsPayload_of_exec (k := fun x n => s.answer n (x.payload ++ [0])) rfl ⟨s.onlyResult_answer _ _ _, rfl⟩

/-- The getters of the opcode. -/
theorem exec_getOp {f : FrameSel} {i : Instr} (hi : i = .cmdGetOp f ∨ i = .ackGetOp f) (s : State) :
    s.readsPayload f i fun n =>
      if n = 0 then errorResult .emptyPayload 0 else okResult ((s.frame f).byte 3).toNat [] false := by
  have hexec : exec i s = .next (s.payloadWindow f fun x n =>
      if n = 0 then s.raise .emptyPayload else s.answer (x.byte 3).toNat) := by
    obtain rfl | rfl := hi <;> rfl
  exact State.readsPayload_of_exec hexec (s.emptyPayload_or_answer _ _ _)

/-- The getters of the string behind the opcode. -/
theorem exec_getString {f : FrameSel} {i : Instr} (hi : i = .cmdGetParam f ∨ i = .ackGetResp f) (s : State) :
    s.readsPayload f i fun n =>
      if n = 0 then errorResult .emptyPayload 0 else okResult (n - 1) ((s.frame f).bytes 4 (n - 1) ++ [0]) false := by
  have hexec : exec i s = .next (s.payloadWindow f fun x n =>
      if n = 0 then s.raise .emptyPayload else s.answer (n - 1) (x.paramString ++ [0])) := by
    obtain rfl | rfl := hi <;> rfl
  exact State.readsPayload_of_exec hexec (s.emptyPayload_or_answer _ _ _)

/-- Settles O35: six getters behind one window check. -/
theorem payloadGetters : Obligations.PayloadGetters := fun f s =>
  ⟨exec_datGet f s, exec_ntcGet f s, fun _ hi => exec_getOp hi s, fun _ hi => exec_getString hi s⟩

/-! ### What was set is read back -/

/-- The header of a frame whose payload was set names exactly that payload (R150). -/
theorem Frame.length_of_payloadSet {x y : Frame} {a : Nat} {p : List (BitVec 8)} (hl : a + p.length ≤ 64)
    (hset : x.payloadSet y a p) : (y.byte 0).toNat % 64 = a + p.length - 3 := by
  obtain ⟨-, -, hbyte0, -⟩ := hset
  rw [hbyte0, BitVec.toNat_ofNat]
  omega

theorem Frame.bytes_of_payloadSet {x y : Frame} {a : Nat} {p : List (BitVec 8)} (hset : x.payloadSet y a p) :
    y.bytes a p.length = p := by
  obtain ⟨-, -, -, hbytes, -⟩ := hset
  exact hbytes

/-- A getter of a frame whose payload was set finds it inside the extent. -/
theorem State.windowResult_of_payloadSet {t : State} {f : FrameSel} {x : Frame} {a : Nat} {p : List (BitVec 8)}
    (ha : 3 ≤ a) (hl : a + p.length ≤ 64) (hset : x.payloadSet (t.frame f) a p) (k : Nat → Result) :
    t.windowResult f k = k (a + p.length - 3) := by
  have hlen := Frame.length_of_payloadSet hl hset
  obtain ⟨hwr, -⟩ := hset
  rw [State.windowResult, hlen, if_neg (by omega), if_neg (by omega)]

/-- A setter and then a getter of the same frame: the getter's result, once the payload that was set is known. -/
theorem exec_set_get {f : FrameSel} {s : State} {i j : Instr} {x y : Frame} {v : Nat} {o : List (BitVec 8)} {b : Bool}
    {a : Nat} {p : List (BitVec 8)} {k : Nat → Result} (hexec : exec i s = .next ((s.setFrame f y).answer v o b))
    (ha : 3 ≤ a) (hl : a + p.length ≤ 64) (hset : x.payloadSet y a p)
    (hget : ((s.setFrame f y).answer v o b).readsPayload f j k) :
    ∃ t u, exec i s = .next t ∧ exec j t = .next u ∧ u.result = some (k (a + p.length - 3)) := by
  obtain ⟨u, hu, -, hres⟩ := hget
  have hframe : ((s.setFrame f y).answer v o b).frame f = y := by rw [State.answer_frame, State.frame_setFrame]
  exact ⟨_, u, hexec, hu, hres.trans (congrArg some (State.windowResult_of_payloadSet ha hl (hframe.symm ▸ hset) k))⟩

/-- Settles O40: the string that a setter stores is the one its getter finds. -/
theorem setThenGet : Obligations.SetThenGet := by
  intro f b s hok
  have h60 := length_take_le 60 b
  have h61 := length_take_le 61 b
  have hstring : ∀ i j : Instr, i = .cmdSetParam f b ∨ i = .ackSetResp f b → j = .cmdGetParam f ∨ j = .ackGetResp f →
      ∃ t u, exec i s = .next t ∧ exec j t = .next u ∧
        u.result = some (okResult (min b.length 60) (b.take 60 ++ [0]) false) := fun i j hi hj => by
    obtain ⟨hset, -⟩ := Frame.payloadSet_setString hok b
    obtain ⟨t, u, ht, hu, hres⟩ := exec_set_get (exec_setString hi s) (by decide) (by omega) hset (exec_getString hj _)
    refine ⟨t, u, ht, hu, hres.trans ?_⟩
    have hback : 4 + (b.take 60).length - 3 - 1 = (b.take 60).length := by omega
    rw [if_neg (by omega), State.answer_frame, State.frame_setFrame, hback, Frame.bytes_of_payloadSet hset,
      List.length_take, Nat.min_comm]
  refine ⟨fun hb => ?_, hstring _ _ (.inl rfl) (.inl rfl), hstring _ _ (.inr rfl) (.inr rfl), ?_⟩
  · obtain ⟨hset, -⟩ := Frame.payloadSet_setRaw hok b
    obtain ⟨t, u, ht, hu, hres⟩ := exec_set_get (i := .datSetRaw f b) rfl (Nat.le_refl 3) (by omega) hset (exec_datGet f _)
    refine ⟨t, u, ht, hu, hres.trans ?_⟩
    rw [State.answer_frame, State.frame_setFrame, Nat.add_sub_cancel_left, Frame.bytes_of_payloadSet hset,
      List.take_of_length_le hb]
  · obtain ⟨hset, -⟩ := Frame.payloadSet_setNotice hok b
    obtain ⟨t, u, ht, hu, hres⟩ := exec_set_get (i := .ntcSet f b) rfl (Nat.le_refl 3) (by omega) hset (exec_ntcGet f _)
    refine ⟨t, u, ht, hu, hres.trans ?_⟩
    rw [State.answer_frame, State.frame_setFrame, Nat.add_sub_cancel_left, Frame.bytes_of_payloadSet hset,
      List.length_take, Nat.min_comm]

/-! ### Decoding in place (R153) -/

theorem encBit_eq_false_iff : ∀ b : BitVec 8, encBit b = false ↔ b &&& 0x20 = 0 := by decide

theorem encBit_putEnc (v : Bool) (b : BitVec 8) : encBit (putEnc v b) = v :=
  (bitSet_putEnc v b 5 (by decide)).trans (if_pos rfl)

/-- No payload of a frame decodes to more than 45 bytes: 63 characters hold 15 whole groups (D15). -/
theorem Frame.length_decoded_payload {x : Frame} {d : List (BitVec 8)} (h : expDecode x.payload = some d) :
    d.length ≤ 45 := by
  obtain ⟨-, hle, -⟩ := length_expDecode h
  rw [Frame.payload, Frame.length_bytes, Frame.lengthField_eq] at hle
  omega

section
variable {f : FrameSel} {s : State}

/-- The ends of `DAT.DECODE` (R153), in the order in which they are tried. -/
theorem exec_datDecode_missing (h : (s.frame f).wr.val < 3) : exec (.datDecode f) s = .next (s.raise .headerMissing) :=
  congrArg Host.Outcome.next (State.needHeader_missing h _)

theorem exec_datDecode_plain (hheader : 3 ≤ (s.frame f).wr.val) (henc : encBit ((s.frame f).byte 1) = false) :
    exec (.datDecode f) s = .next (s.answer (s.frame f).lengthField) :=
  (exec_of_header hheader rfl).trans (congrArg _ (if_neg (Bool.eq_false_iff.1 henc)))

theorem exec_datDecode_mismatch (hheader : 3 ≤ (s.frame f).wr.val) (henc : encBit ((s.frame f).byte 1) = true)
    (hout : (s.frame f).wr.val < 3 + (s.frame f).lengthField) :
    exec (.datDecode f) s = .next (s.raise .lengthMismatch) := by
  refine (exec_of_header hheader rfl).trans (congrArg _ ((if_pos henc).trans ?_))
  exact (State.needHeader_of_header hheader _).trans (if_pos hout)

theorem exec_datDecode_inside (henc : encBit ((s.frame f).byte 1) = true)
    (hin : 3 + (s.frame f).lengthField ≤ (s.frame f).wr.val) :
    exec (.datDecode f) s = .next (decodeInPlace f (s.frame f) s) :=
  (exec_of_header (by omega) rfl).trans (congrArg _ ((if_pos henc).trans (State.payloadWindow_inside hin _)))

theorem decodeInPlace_bad (h : expDecode (s.frame f).payload = none) :
    decodeInPlace f (s.frame f) s = s.raise .badEncoding := by
  rw [decodeInPlace, h]

/-- The decoding that succeeds; it is never too long. -/
theorem decodeInPlace_good {d : List (BitVec 8)} (h : expDecode (s.frame f).payload = some d) :
    decodeInPlace f (s.frame f) s = (s.setFrame f ((s.frame f).setDecoded d)).answer d.length := by
  rw [decodeInPlace, h]
  exact if_neg (Nat.not_lt.2 (Frame.length_decoded_payload h))

end

/-- Settles O34, by the ends of the instruction in their order. -/
theorem datDecode : Obligations.DatDecode := by
  intro f s hok
  have hflag := encBit_eq_false_iff ((s.frame f).byte 1)
  by_cases hmissing : (s.frame f).wr.val < 3
  · refine ⟨_, exec_datDecode_missing hmissing, ?_⟩
    rw [if_pos hmissing]
    exact ⟨s.onlyResult_raise _ _ _, rfl⟩
  · rw [← Frame.lengthField_eq]
    have hheader := Nat.not_lt.1 hmissing
    cases henc : encBit ((s.frame f).byte 1)
    · have hclear := hflag.1 henc
      refine ⟨_, exec_datDecode_plain hheader henc, ?_⟩
      rw [if_neg hmissing, if_neg (fun h => h.2 hclear), if_pos hclear]
      exact ⟨s.onlyResult_answer _ _ _, rfl⟩
    · have hset : (s.frame f).byte 1 &&& 0x20 ≠ 0 := fun h => by
        rw [hflag.2 h] at henc
        cases henc
      by_cases hout : (s.frame f).wr.val < 3 + (s.frame f).lengthField
      · refine ⟨_, exec_datDecode_mismatch hheader henc hout, ?_⟩
        rw [if_neg hmissing, if_pos ⟨hout, hset⟩]
        exact ⟨s.onlyResult_raise _ _ _, rfl⟩
      · refine ⟨_, exec_datDecode_inside henc (Nat.not_lt.1 hout), ?_⟩
        rw [if_neg hmissing, if_neg (fun h => hout h.1), if_neg hset]
        cases hd : expDecode ((s.frame f).bytes 3 (s.frame f).lengthField) with
        | none =>
          rw [decodeInPlace_bad hd]
          exact ⟨s.onlyResult_raise _ _ _, rfl⟩
        | some d =>
          have hlen := Frame.length_decoded_payload hd
          obtain ⟨hpayload, hbyte1⟩ := Frame.payloadSet_setDecoded hok hlen
          rw [decodeInPlace_good hd]
          refine ⟨hlen, s.onlyFrame_setFrame_answer f _ _ _ _, ?_⟩
          rw [State.answer_frame, State.frame_setFrame, hbyte1]
          exact ⟨hpayload, bitSet_putEnc false _, rfl⟩

/-- Settles O39: the text stored is the one decoded, and the decoded frame has `ENC` clear. -/
theorem encodedDataRoundTrip : Obligations.EncodedDataRoundTrip := by
  intro f b s hok hb
  have htake : b.take 45 = b := List.take_of_length_le hb
  have h60 := length_expEncode_le b
  obtain ⟨henc, henc1⟩ := Frame.payloadSet_setEncoded hok b
  have hencok := Frame.ok_setEncoded hok b
  rw [htake] at henc h60
  generalize hy : (s.frame f).setEncoded b = y at henc henc1 hencok
  have hylen : y.lengthField = (expEncode b).length := by
    rw [Frame.lengthField_eq, Frame.length_of_payloadSet (by omega) henc]
    omega
  have hdec : expDecode y.payload = some b := by
    rw [Frame.payload, hylen, Frame.bytes_of_payloadSet henc, expDecode_expEncode]
  obtain ⟨hset, hset1⟩ := Frame.payloadSet_setDecoded hencok hb
  have hzlen : (y.setDecoded b).lengthField = b.length := by
    rw [Frame.lengthField_eq, Frame.length_of_payloadSet (by omega) hset]
    omega
  obtain ⟨t, ht⟩ : ∃ t, exec (.datSetEnc f b) s = .next t ∧ t.frame f = y :=
    ⟨_, rfl, by rw [State.answer_frame, State.frame_setFrame, hy]⟩
  obtain ⟨htexec, rfl⟩ := ht
  have hdecode : exec (.datDecode f) t = .next ((t.setFrame f ((t.frame f).setDecoded b)).answer b.length) := by
    have hflag : encBit ((t.frame f).byte 1) = true := henc1 ▸ encBit_putEnc true _
    have hin : 3 + (t.frame f).lengthField ≤ (t.frame f).wr.val := by
      rw [hylen, henc.1]
    rw [exec_datDecode_inside hflag hin, decodeInPlace_good hdec]
  obtain ⟨u, hu⟩ : ∃ u, u = (t.setFrame f ((t.frame f).setDecoded b)).answer b.length := ⟨_, rfl⟩
  have huf : u.frame f = (t.frame f).setDecoded b := by rw [hu, State.answer_frame, State.frame_setFrame]
  rw [← hu] at hdecode
  rw [← huf] at hset hset1 hzlen
  obtain ⟨v, hvexec, -, hvres⟩ := exec_datGet f u
  rw [State.windowResult_of_payloadSet (Nat.le_refl 3) (by omega) hset, Nat.add_sub_cancel_left,
    Frame.bytes_of_payloadSet hset] at hvres
  have hwexec : exec (.datDecode f) u = .next (u.answer (u.frame f).lengthField) :=
    exec_datDecode_plain (by rw [hset.1]; omega) (hset1 ▸ encBit_putEnc false _)
  rw [hzlen] at hwexec
  exact ⟨t, u, v, _, htexec, hdecode, hu ▸ rfl, hvexec, hvres, hwexec, rfl, u.onlyResult_answer _ _ _⟩

end Sys2Proof.Machine
end

section
/-! Frames handed to T (R60, R210 to R212): one call of `T.send`, several in a row, and the bytes of a frame built in
`TXF`. -/

namespace Sys2Proof.Machine

/-! ### The content of a frame -/

/-- A slice in two parts. -/
theorem Mem.slice_add (m : List Host.Cell) : ∀ (k n a : Nat),
    Mem.slice m a (k + n) = Mem.slice m a k ++ Mem.slice m (a + k) n
  | 0, n, a => by rw [Nat.zero_add]; rfl
  | k + 1, n, a => by
    rw [show k + 1 + n = k + n + 1 by omega, Mem.slice_succ, Mem.slice_succ, Mem.slice_add m k n (a + 1),
      show a + 1 + k = a + (k + 1) by omega]
    rfl

/-- The content of a frame whose payload was set behind the header. -/
theorem Frame.content_of_payloadSet {x y : Frame} {p : List (BitVec 8)} (hset : x.payloadSet y 3 p) :
    y.content = [BitVec.ofNat 8 p.length, y.byte 1, x.byte 2] ++ p := by
  obtain ⟨hwr, -, hbyte0, hbytes, hkept, -⟩ := hset
  rw [Frame.content, hwr, Frame.bytes, Mem.slice_add, Nat.zero_add]
  refine congrArg₂ _ ?_ hbytes
  show [y.byte 0, y.byte 1, y.byte 2] = _
  rw [hbyte0, hkept 2 (by decide) (by decide) (.inl (by decide)), Nat.add_sub_cancel_left]

/-- The content of a frame whose string was set behind the opcode. -/
theorem Frame.content_of_stringSet {x y : Frame} {p : List (BitVec 8)} (hset : x.payloadSet y 4 p) :
    y.content = [BitVec.ofNat 8 (1 + p.length), y.byte 1, x.byte 2, x.byte 3] ++ p := by
  obtain ⟨hwr, -, hbyte0, hbytes, hkept, -⟩ := hset
  rw [Frame.content, hwr, Frame.bytes, Mem.slice_add, Nat.zero_add]
  refine congrArg₂ _ ?_ hbytes
  show [y.byte 0, y.byte 1, y.byte 2, y.byte 3] = _
  rw [hbyte0, hkept 2 (by decide) (by decide) (.inl (by decide)), hkept 3 (by decide) (by decide) (.inl (by decide)),
    show 4 + p.length - 3 = 1 + p.length by omega]

/-- Byte 1 rewritten changes the content in that place alone. -/
theorem Frame.content_mapByte1 {x : Frame} (hok : x.ok = true) (g : BitVec 8 → BitVec 8) :
    (x.mapByte1 g).content = x.content.set 1 (g (x.byte 1)) := by
  apply List.ext_getElem
  · simp [Frame.content]
  · intro i h1 h2
    rw [List.getElem_set]
    simp only [Frame.content, Frame.getElem_bytes, Nat.zero_add, Frame.byte_mapByte1 (Frame.ok_wf hok)]
    by_cases hi : i = 1
    · simp [hi]
    · simp [hi, Ne.symm hi]

@[simp] theorem Frame.length_content (x : Frame) : x.content.length = x.wr.val := Frame.length_bytes x 0 _

/-- A frame just built holds its type in byte 1 and nothing else (R212). -/
theorem Frame.byte_build (x : Frame) (type : BitVec 3) (a : Nat) :
    (x.build type).byte a = if a = 1 then type.setWidth 8 else 0 :=
  Frame.byte_setByte (x := x.clear.resetLen 3) Mem.wf_nil 1 a _

/-! ### What a send leaves alone -/

theorem State.sameAroundSend_refl (s : State) : s.sameAroundSend s := by
  unfold State.sameAroundSend
  simp

theorem State.sameAroundSend_trans {s t u : State} (h : s.sameAroundSend t) (h' : t.sameAroundSend u) :
    s.sameAroundSend u := by
  unfold State.sameAroundSend at *
  simp_all

/-- T answers a send from its script while that lasts, else freely. -/
theorem State.answeredOnce_send (s : State) (b : List (BitVec 8)) : s.answeredOnce (s.send b).2 (s.send b).1 := by
  unfold State.answeredOnce State.send State.sendAnswer
  cases h : s.t.sendAnswers <;> simp [h]

theorem State.answeredOnce_congr {s u t : State} {a : Nat} (ht : u.t = s.t) (hd : u.draws = s.draws)
    (h : u.answeredOnce t a) : s.answeredOnce t a := by
  unfold State.answeredOnce at *
  rwa [ht, hd] at h

/-- `xmit(TXF)` hands over one frame (R211). -/
theorem State.sentOnce_xmitTxf (s : State) (x : Frame) :
    s.sentOnce (s.xmitTxf x).2 (s.stamped x).content (s.xmitTxf x).1 := by
  refine ⟨?_, s.xmitTxf_sent x, s.xmitTxf_seq x, by simp [State.sameAroundSend]⟩
  exact State.answeredOnce_congr rfl rfl (State.answeredOnce_send { s.bumpSeq with txf := s.stamped x } _)

/-- `xmit(F[f])` hands over one frame (R211). -/
theorem State.sentOnce_xmitFrame (s : State) (f : FrameSel) :
    s.sentOnce (s.xmitFrame f).2 (s.stamped (s.frame f)).content (s.xmitFrame f).1 := by
  obtain ⟨answers, draws, h⟩ := s.xmitFrame_spec f
  refine ⟨?_, by rw [h], by rw [h], ?_⟩
  · refine State.answeredOnce_congr ?_ ?_ (State.answeredOnce_send ((s.bumpSeq).setFrame f (s.stamped (s.frame f))) _)
    · rw [State.setFrame_t, State.bumpSeq_t]
    · rw [State.setFrame_draws, State.bumpSeq_draws]
  · rw [h]
    simp [State.sameAroundSend]

/-! ### Several sends in a row -/

/-- From `s` to `t` the strings of `l` were handed to T, one attempt each: `SEQ` advanced by their number, T answered from
its script while that lasted, nothing else around the sender changed, and T and the tick input are as those calls leave
them. -/
def State.sends (s t : State) (l : List Sent) : Prop :=
  t.t.sent = s.t.sent ++ l ∧ t.seq = s.seq + BitVec.ofNat 8 l.length ∧ s.sameAroundSend t ∧
    (∀ (j : Nat) (x : Sent) (a : Nat), l[j]? = some x → s.t.sendAnswers[j]? = some a → x.accepted = a) ∧
    (s.performAll (l.map fun x => .send x.bytes)).sameInputs t

/-- Nothing was sent where the sender and the environment are the same. -/
theorem State.sends_nil {s t : State} (hseq : t.seq = s.seq) (ht : t.t = s.t) (hticks : t.ticks = s.ticks)
    (hdraws : t.draws = s.draws) (hsame : s.sameAroundSend t) : s.sends t [] :=
  ⟨by rw [ht, List.append_nil], by rw [hseq]; simp, hsame, fun j x a hx => by simp at hx, ht, hticks, hdraws⟩

/-- One send more, in front. -/
theorem State.sends_cons {s t u : State} {b : List (BitVec 8)} {a : Nat} {l : List Sent} (h : s.sentOnce t b a)
    (hcall : (s.perform (.send b)).sameInputs t) (h' : t.sends u l) : s.sends u (⟨b, a⟩ :: l) := by
  obtain ⟨hans, hsent, hseq, hsame⟩ := h
  obtain ⟨hsent', hseq', hsame', hans', hcalls⟩ := h'
  refine ⟨?_, ?_, State.sameAroundSend_trans hsame hsame', fun j x c hx hc => ?_, ?_⟩
  · rw [hsent', hsent, List.append_assoc]
    rfl
  · rw [hseq', hseq, List.length_cons, BitVec.add_assoc]
    congr 1
    apply BitVec.eq_of_toNat_eq
    simp [Nat.add_comm]
  · unfold State.answeredOnce at hans
    split at hans
    · next y r hy =>
      obtain ⟨hay, hr, -⟩ := hans
      cases j with
      | zero =>
        rw [hy] at hc
        simp only [List.getElem?_cons_zero, Option.some.injEq] at hx hc
        rw [← hx, ← hc, hay]
      | succ j =>
        rw [hy] at hc
        simp only [List.getElem?_cons_succ] at hx hc
        exact hans' j x c hx (hr.symm ▸ hc)
    · next hnil =>
      rw [hnil] at hc
      simp at hc
  · have hrest := State.performAll_sameInputs (l.map fun x => .send x.bytes) hcall
    obtain ⟨h1, h2, h3⟩ := hrest
    obtain ⟨h1', h2', h3'⟩ := hcalls
    exact ⟨h1'.trans h1, h2'.trans h2, h3'.trans h3⟩

/-- What `xmit(TXF)` does to T is the one call. -/
theorem State.perform_xmitTxf (s : State) (x : Frame) :
    (s.perform (.send (s.stamped x).content)).sameInputs (s.xmitTxf x).2 :=
  State.perform_sameInputs (s := s) (u := { s.bumpSeq with txf := s.stamped x }) ⟨rfl, rfl, rfl⟩
    (.send (s.stamped x).content)

theorem State.perform_xmitFrame (s : State) (f : FrameSel) :
    (s.perform (.send (s.stamped (s.frame f)).content)).sameInputs (s.xmitFrame f).2 :=
  State.perform_sameInputs (s := s) (u := (s.bumpSeq).setFrame f (s.stamped (s.frame f)))
    ⟨State.setFrame_t _ f _, State.setFrame_ticks _ f _, State.setFrame_draws _ f _⟩
    (.send (s.stamped (s.frame f)).content)

/-! ### Composite sends of one frame (R215 to R218) -/

/-- The end of a composite send, whatever T answers: the frame that was built, stamped, went out once. -/
theorem State.sendBuilt_spec (s : State) (x : Frame) (v : Nat) (c : Bool) :
    ∃ t, s.sendBuilt x v c = { t with result := some (if (s.xmitTxf x).1 = x.wr.val then okResult v [] c
      else errorResult .sendMismatch v c) } ∧ t = (s.xmitTxf x).2 := by
  obtain ⟨h, e⟩ | ⟨h, e⟩ := s.sendBuilt_cases x v c
  · exact ⟨_, by rw [e, if_pos h]; rfl, rfl⟩
  · exact ⟨_, by rw [e, if_neg h]; rfl, rfl⟩

/-- A composite send of a well-formed frame with the bytes `b` once the identifier is in place. -/
theorem State.sendsFrame_sendBuilt {s : State} {x : Frame} {b : List (BitVec 8)} (hok : x.ok = true)
    (hmeta : s.txf.sameMeta x) (hrd : x.rd.val = 0) (hb : x.content.set 2 s.seq = b) (v : Nat) (c : Bool) :
    s.sendsFrame (s.sendBuilt x v c) b v c := by
  have hcontent : (s.stamped x).content = b := (Frame.content_stamped s hok).trans hb
  have hlen : b.length = x.wr.val := by rw [← hb, List.length_set, Frame.length_content]
  have hsent := s.sentOnce_xmitTxf x
  obtain ⟨t, e, rfl⟩ := s.sendBuilt_spec x v c
  rw [e, ← hlen]
  rw [hcontent] at hsent
  refine ⟨_, hsent, s.xmitTxf_f0 x, s.xmitTxf_f1 x, ?_, ?_, ?_, rfl⟩
  · exact (congrArg Frame.content (s.xmitTxf_txf x)).trans hcontent
  · exact (congrArg (fun y => y.rd.val) (s.xmitTxf_txf x)).trans hrd
  · exact (s.xmitTxf_txf x).symm ▸ hmeta

/-- The read cursor of a frame whose payload was set stays at 0. -/
theorem Frame.rd_of_payloadSet {x y : Frame} {a : Nat} {p : List (BitVec 8)} (hset : x.payloadSet y a p)
    (hx : x.rd.val = 0) : y.rd.val = 0 := by
  obtain ⟨-, hrd, -⟩ := hset
  rw [hrd, hx, Nat.zero_min]

theorem Frame.sameMeta_of_payloadSet {x y : Frame} {a : Nat} {p : List (BitVec 8)} (hset : x.payloadSet y a p) :
    x.sameMeta y := by
  obtain ⟨-, -, -, -, -, hmeta⟩ := hset
  exact hmeta

theorem Frame.sameMeta_trans {x y z : Frame} (h : x.sameMeta y) (h' : y.sameMeta z) : x.sameMeta z :=
  ⟨h'.1.trans h.1, h'.2.1.trans h.2.1, h'.2.2.trans h.2.2⟩

/-- A frame of type `type` built in `x`, with an opcode and a string behind it (R212, R215, R217). -/
theorem Frame.build_string (x : Frame) (type : BitVec 3) (op : BitVec 8) (b : List (BitVec 8)) : ∃ y : Frame,
    y = ((x.build type).setOpcode op).setString b ∧ y.ok = true ∧ x.sameMeta y ∧ y.rd.val = 0 ∧
      y.byte 1 = type.setWidth 8 ∧
      y.content = [BitVec.ofNat 8 (1 + min b.length 60), type.setWidth 8, 0, op] ++ b.take 60 := by
  have hok := Frame.ok_setOpcode (Frame.ok_build x type) op
  have hbyte : ∀ a, ((x.build type).setOpcode op).byte a = _ := Frame.byte_setOpcode (Frame.ok_build x type) op
  obtain ⟨hset, hbyte1⟩ := Frame.payloadSet_setString hok b
  have hrd : ((x.build type).setOpcode op).rd.val = 0 := by
    rw [Frame.rd_setOpcode (Frame.ok_build x type)]
    rfl
  have h1 : (((x.build type).setOpcode op).setString b).byte 1 = type.setWidth 8 := by
    rw [hbyte1, hbyte, if_neg (by decide), if_neg (by decide), Frame.byte_build, if_pos rfl]
  refine ⟨_, rfl, Frame.ok_setString hok b, ?_, Frame.rd_of_payloadSet hset hrd, h1, ?_⟩
  · exact Frame.sameMeta_trans (Frame.sameMeta_build x type)
      (Frame.sameMeta_trans (Frame.sameMeta_setOpcode _ op) (Frame.sameMeta_of_payloadSet hset))
  · rw [Frame.content_of_stringSet hset, h1, hbyte, hbyte, if_neg (by decide), if_neg (by decide), if_neg (by decide),
      if_pos rfl, Frame.byte_build, if_neg (by decide), List.length_take, Nat.min_comm]

end Sys2Proof.Machine
end

section
/-! The sender's instructions (R210 to R220): the counter, one frame of the host, and the composite sends of one frame. -/

namespace Sys2Proof.Machine

/-- Settles O44. -/
theorem sndSeq : Obligations.SndSeq := by
  intro s
  refine ⟨_, rfl, ⟨rfl, rfl, rfl, ⟨rfl, rfl, rfl, rfl, rfl, rfl, rfl, rfl⟩, ⟨rfl, rfl, rfl, rfl, rfl, rfl⟩⟩, ?_, rfl⟩
  exact BitVec.toNat_add s.seq 1

/-- The end of `SND.XMIT` on a frame with a header: what `xmit` left, and a result. -/
theorem exec_sndXmit {f : FrameSel} {s : State} (hheader : 3 ≤ (s.frame f).wr.val) :
    ∃ t, exec (.sndXmit f) s = .next { t with result := some (if (s.xmitFrame f).1 = (s.frame f).wr.val then
      okResult (s.frame f).wr.val [] false else errorResult .sendMismatch (s.xmitFrame f).1) } ∧
        t = (s.xmitFrame f).2 := by
  refine ⟨_, (exec_of_header hheader rfl).trans (congrArg _ ?_), rfl⟩
  by_cases h : (s.xmitFrame f).1 = (s.frame f).wr.val
  · rw [if_pos h, if_pos h]
    rfl
  · rw [if_neg h, if_neg h]
    rfl

/-- Settles O45: the stamped frame goes out once and stays in the register. -/
theorem sndXmit : Obligations.SndXmit := by
  intro f s hok hheader
  obtain ⟨t, hexec, ht⟩ := exec_sndXmit hheader
  have hsent := s.sentOnce_xmitFrame f
  obtain ⟨answers, draws, hstate⟩ := s.xmitFrame_spec f
  rw [Frame.content_stamped s hok, ← ht] at hsent
  rw [← ht] at hstate
  have hframe : ∀ g, t.frame g = (s.setFrame f (s.stamped (s.frame f))).frame g := fun g => by
    rw [hstate]
    cases g <;> rfl
  have hown : t.frame f = s.stamped (s.frame f) := (hframe f).trans (State.frame_setFrame _ _ _)
  have htxf : t.txf = s.txf := by
    rw [hstate]
    exact State.setFrame_txf _ _ _
  have hsame : (s.frame f).sameBytesOutside (s.stamped (s.frame f)) 2 3 := Frame.sameBytesOutside_setByte _ 2 _
  refine ⟨_, _, hexec, hsent, fun g hg => (hframe g).trans (State.frame_setFrame_other _ _ hg), htxf, ?_⟩
  show (s.frame f).sameMeta (t.frame f) ∧ (t.frame f).wr = _ ∧ (t.frame f).rd = _ ∧ (t.frame f).byte 2 = _ ∧
    (s.frame f).sameBytesOutside (t.frame f) 2 3 ∧ _
  rw [hown]
  exact ⟨⟨rfl, rfl, rfl⟩, rfl, rfl, Frame.byte_setByte_same hok 2 _, hsame, rfl⟩

/-- Settles O46: each of the four builds its frame in `TXF` and sends it. -/
theorem sndOneFrame : Obligations.SndOneFrame := by
  intro op b s
  refine ⟨⟨_, rfl, ?_⟩, ⟨_, rfl, ?_⟩, ⟨_, rfl, ?_⟩, ⟨_, rfl, ?_⟩⟩
  · obtain ⟨y, rfl, hok, hmeta, hrd, -, hcontent⟩ := Frame.build_string s.txf 1 op b
    rw [paramCount, truncated_min]
    exact State.sendsFrame_sendBuilt hok hmeta hrd (by rw [hcontent]; rfl) _ _
  · obtain ⟨y, rfl, hok, hmeta, hrd, hbyte1, hcontent⟩ := Frame.build_string s.txf 1 op b
    rw [paramCount, truncated_min]
    refine State.sendsFrame_sendBuilt (Frame.ok_mapByte1 hok _) hmeta hrd ?_ _ _
    rw [Frame.content_mapByte1 hok, hcontent, hbyte1]
    rfl
  · obtain ⟨y, rfl, hok, hmeta, hrd, -, hcontent⟩ := Frame.build_string s.txf 2 op b
    rw [paramCount, truncated_min]
    exact State.sendsFrame_sendBuilt hok hmeta hrd (by rw [hcontent]; rfl) _ _
  · obtain ⟨hset, hbyte1⟩ := Frame.payloadSet_setNotice (Frame.ok_build s.txf 3) b
    rw [noticeCount, truncated_min]
    refine State.sendsFrame_sendBuilt (Frame.ok_setNotice (Frame.ok_build _ _) b)
      (Frame.sameMeta_trans (Frame.sameMeta_build _ 3) (Frame.sameMeta_of_payloadSet hset))
      (Frame.rd_of_payloadSet hset rfl) ?_ _ _
    rw [Frame.content_of_payloadSet hset, hbyte1, Frame.byte_build, if_pos rfl, List.length_take, Nat.min_comm]
    rfl

end Sys2Proof.Machine
end

section
/-! SND.DATA (R213, R214): the frame of one round is one fragment, the rounds send the fragments in their order up to the
first that T does not accept whole. -/

namespace Sys2Proof.Machine

/-! ### The frame of one round -/

/-- The payload of a Data frame that carries the front of `rest`. -/
def dataPayload (encode : Bool) (rest : List (BitVec 8)) : List (BitVec 8) :=
  if encode then expEncode (rest.take 45) else rest.take 61

theorem dataCount_eq (encode : Bool) (n : Nat) : dataCount encode n = min n (dataCapacity encode) := by
  cases encode <;> rfl

theorem dataCapacity_pos (encode : Bool) : 0 < dataCapacity encode := by
  cases encode <;> decide

theorem fragmentPayload_eq (encode : Bool) (b : List (BitVec 8)) (j : Nat) :
    fragmentPayload encode b j = dataPayload encode (b.drop (dataCapacity encode * j)) := by
  cases encode <;> rfl

/-- A Data frame built in `x` holds the front of `rest` behind its header, and `ENC` in byte 1. -/
theorem Frame.build_data (x : Frame) (encode : Bool) (rest : List (BitVec 8)) : ∃ y : Frame,
    y = (if encode then (x.build 0).setEncoded rest else (x.build 0).setRaw rest) ∧ y.ok = true ∧
      (x.build 0).payloadSet y 3 (dataPayload encode rest) ∧ y.byte 1 = BitVec.ofNat 8 (if encode then 32 else 0) := by
  have hok := Frame.ok_build x 0
  have hbyte : (x.build 0).byte 1 = 0 := Frame.byte_build x 0 1
  cases encode with
  | false =>
    obtain ⟨hset, hbyte1⟩ := Frame.payloadSet_setRaw hok rest
    exact ⟨_, rfl, Frame.ok_setRaw hok rest, hset, by rw [if_neg Bool.false_ne_true, hbyte1, hbyte]; decide⟩
  | true =>
    obtain ⟨hset, hbyte1⟩ := Frame.payloadSet_setEncoded hok rest
    exact ⟨_, rfl, Frame.ok_setEncoded hok rest, hset, by rw [if_pos rfl, hbyte1, hbyte]; decide⟩

/-- `FRAG` set in byte 1 of a Data frame just built (R213). -/
theorem putFrag_encByte (encode : Bool) : putFrag true (BitVec.ofNat 8 (if encode then 32 else 0)) =
    BitVec.ofNat 8 ((if encode then 32 else 0) + 16) := by
  cases encode <;> decide

/-- The frame of one round of `SND.DATA`: its bytes, and what it keeps of `TXF`. -/
theorem State.dataFrame_spec (s : State) (fragment encode : Bool) (rest : List (BitVec 8)) (more : Bool) :
    (s.dataFrame fragment encode rest more).ok = true ∧ s.txf.sameMeta (s.dataFrame fragment encode rest more) ∧
      (s.dataFrame fragment encode rest more).content = [BitVec.ofNat 8 (dataPayload encode rest).length,
        BitVec.ofNat 8 ((if encode then 32 else 0) + if more || fragment then 16 else 0), 0] ++
          dataPayload encode rest := by
  obtain ⟨y, hy, hok, hset, hbyte1⟩ := Frame.build_data s.txf encode rest
  have hmeta := Frame.sameMeta_trans (Frame.sameMeta_build s.txf 0) (Frame.sameMeta_of_payloadSet hset)
  have hcontent := Frame.content_of_payloadSet hset
  have hid : (s.txf.build 0).byte 2 = 0 := Frame.byte_build _ _ _
  rw [hbyte1, hid] at hcontent
  rw [State.dataFrame, ← hy]
  by_cases h : (more || fragment) = true
  · rw [if_pos h, if_pos h]
    refine ⟨Frame.ok_mapByte1 hok _, hmeta, ?_⟩
    rw [Frame.content_mapByte1 hok, hcontent, hbyte1, putFrag_encByte]
    rfl
  · rw [if_neg h, if_neg h]
    exact ⟨hok, hmeta, hcontent⟩

/-! ### The place of a round among the fragments -/

/-- Bytes are left to send exactly before the last fragment. -/
theorem lt_fragmentCount_iff (encode : Bool) (n j : Nat) :
    j < fragmentCount encode n ↔ dataCapacity encode * j < n := by
  have hpos := dataCapacity_pos encode
  rw [fragmentCount, Nat.lt_iff_add_one_le, Nat.le_div_iff_mul_le hpos, Nat.add_mul, Nat.mul_comm j]
  omega

/-- What a round leaves to the next one. -/
theorem drop_dataCount (encode : Bool) (b : List (BitVec 8)) (j : Nat) :
    (b.drop (dataCapacity encode * j)).drop (dataCount encode (b.drop (dataCapacity encode * j)).length) =
      b.drop (dataCapacity encode * (j + 1)) := by
  rw [dataCount_eq, List.drop_drop, List.length_drop, Nat.mul_add, Nat.mul_one]
  by_cases h : b.length - dataCapacity encode * j ≤ dataCapacity encode
  · rw [List.drop_eq_nil_of_le (by omega), List.drop_eq_nil_of_le (by omega)]
  · rw [Nat.min_eq_right (by omega)]

/-- The bytes carried after a round. -/
theorem min_add_dataCount (encode : Bool) (n j : Nat) :
    min n (dataCapacity encode * j) + dataCount encode (n - dataCapacity encode * j) =
      min n (dataCapacity encode * (j + 1)) := by
  rw [dataCount_eq, Nat.mul_add]
  omega

/-- A round sets `FRAG` for a further fragment exactly where it leaves bytes. -/
theorem dataCount_lt_iff (encode : Bool) (n j : Nat) :
    dataCount encode (n - dataCapacity encode * j) < n - dataCapacity encode * j ↔ j + 1 < fragmentCount encode n := by
  have hpos := dataCapacity_pos encode
  rw [dataCount_eq, lt_fragmentCount_iff, Nat.mul_add]
  omega

/-- The frame that round `j` builds. -/
def State.fragmentFrame (s : State) (fragment encode : Bool) (b : List (BitVec 8)) (j : Nat) : Frame :=
  s.dataFrame fragment encode (b.drop (dataCapacity encode * j))
    (decide (dataCount encode (b.drop (dataCapacity encode * j)).length < (b.drop (dataCapacity encode * j)).length))

/-- Once stamped, the frame of round `j` is fragment `j`. -/
theorem State.fragmentFrame_spec {s : State} {q : BitVec 8} (fragment encode : Bool) (b : List (BitVec 8)) (j : Nat)
    (hq : s.seq = q + BitVec.ofNat 8 j) :
    (s.fragmentFrame fragment encode b j).ok = true ∧ s.txf.sameMeta (s.fragmentFrame fragment encode b j) ∧
      (s.stamped (s.fragmentFrame fragment encode b j)).content = fragmentBytes fragment encode q b j := by
  obtain ⟨hok, hmeta, hcontent⟩ := s.dataFrame_spec fragment encode (b.drop (dataCapacity encode * j))
    (decide (dataCount encode (b.drop (dataCapacity encode * j)).length < (b.drop (dataCapacity encode * j)).length))
  refine ⟨hok, hmeta, ?_⟩
  rw [State.fragmentFrame, Frame.content_stamped s hok, hcontent, fragmentBytes, fragmentPayload_eq, Bool.or_comm]
  simp only [List.length_drop, dataCount_lt_iff, hq]
  rfl

/-! ### The rounds -/

/-- What the rounds of `SND.DATA` from fragment `j` on do: they send fragments `j`, `j + 1`, … one attempt each, and end
with all bytes carried or with the first fragment not accepted whole. -/
structure sendsFragments (fragment encode : Bool) (q : BitVec 8) (b : List (BitVec 8)) (j : Nat) (s t : State)
    (l : List Sent) : Prop where
  sends : s.sends t l
  frames : t.f0 = s.f0 ∧ t.f1 = s.f1
  sameMeta : s.txf.sameMeta t.txf
  ok : s.txf.ok = true → t.txf.ok = true
  bytes : ∀ i x, l[i]? = some x → x.bytes = fragmentBytes fragment encode q b (j + i)
  ended : (j + l.length = fragmentCount encode b.length ∧ (∀ x ∈ l, x.accepted = x.bytes.length) ∧
      t.result = some (okResult b.length [] false)) ∨
    ∃ y z, l = y ++ [z] ∧ j + l.length ≤ fragmentCount encode b.length ∧ (∀ x ∈ y, x.accepted = x.bytes.length) ∧
      z.accepted ≠ z.bytes.length ∧ t.result = some (errorResult .sendMismatch (dataCapacity encode * (j + y.length)))

section
variable {fragment encode : Bool} {q : BitVec 8} {b : List (BitVec 8)} {j : Nat} {s : State}

/-- No round is left: nothing is sent, all bytes are carried. -/
theorem sendsFragments_nil (hj : j = fragmentCount encode b.length) :
    sendsFragments fragment encode q b j s (s.answer b.length) [] where
  sends := State.sends_nil rfl rfl rfl rfl s.sameAroundSend_refl
  frames := ⟨rfl, rfl⟩
  sameMeta := Frame.sameMeta_refl _
  ok := id
  bytes := fun i x hx => by simp at hx
  ended := .inl ⟨hj, by simp, rfl⟩

/-- A round whose frame T does not accept whole is the last. -/
theorem sendsFragments_rejected {x : Frame} (hx : (s.stamped x).content = fragmentBytes fragment encode q b j)
    (hok : x.ok = true) (hmeta : s.txf.sameMeta x) (hj : j < fragmentCount encode b.length)
    (hrej : (s.xmitTxf x).1 ≠ x.wr.val) :
    sendsFragments fragment encode q b j s ((s.xmitTxf x).2.raise .sendMismatch (dataCapacity encode * j))
      [⟨fragmentBytes fragment encode q b j, (s.xmitTxf x).1⟩] := by
  have hlen : (fragmentBytes fragment encode q b j).length = x.wr.val := by rw [← hx, Frame.length_content]; rfl
  have hsends : s.sends ((s.xmitTxf x).2.raise .sendMismatch (dataCapacity encode * j)) _ :=
    State.sends_cons (s.sentOnce_xmitTxf x) (s.perform_xmitTxf x)
      (State.sends_nil rfl rfl rfl rfl (State.sameAroundSend_refl _))
  rw [hx] at hsends
  refine ⟨hsends, ⟨s.xmitTxf_f0 x, s.xmitTxf_f1 x⟩, (s.xmitTxf_txf x).symm ▸ hmeta,
    fun _ => (s.xmitTxf_txf x).symm ▸ Frame.ok_stamped s hok, fun i y hy => ?_,
    .inr ⟨[], _, rfl, hj, by simp, hlen ▸ hrej, rfl⟩⟩
  obtain ⟨rfl, rfl⟩ : i = 0 ∧ _ = y := by simpa [List.getElem?_singleton] using hy
  rfl

/-- A round whose frame T accepts whole, with the rounds behind it. -/
theorem sendsFragments_cons {x : Frame} {t : State} {l : List Sent}
    (hx : (s.stamped x).content = fragmentBytes fragment encode q b j) (hok : x.ok = true) (hmeta : s.txf.sameMeta x)
    (hacc : (s.xmitTxf x).1 = x.wr.val) (h : sendsFragments fragment encode q b (j + 1) (s.xmitTxf x).2 t l) :
    sendsFragments fragment encode q b j s t (⟨fragmentBytes fragment encode q b j, (s.xmitTxf x).1⟩ :: l) := by
  have hlen : (s.xmitTxf x).1 = (fragmentBytes fragment encode q b j).length := by
    rw [hacc, ← hx, Frame.length_content]
    rfl
  have hsent := s.sentOnce_xmitTxf x
  have hcall := s.perform_xmitTxf x
  rw [hx] at hsent hcall
  have htxf : s.txf.sameMeta (s.xmitTxf x).2.txf := (s.xmitTxf_txf x).symm ▸ hmeta
  refine ⟨State.sends_cons hsent hcall h.sends,
    ⟨h.frames.1.trans (s.xmitTxf_f0 x), h.frames.2.trans (s.xmitTxf_f1 x)⟩, Frame.sameMeta_trans htxf h.sameMeta,
    fun _ => h.ok ((s.xmitTxf_txf x).symm ▸ Frame.ok_stamped s hok), fun i y hy => ?_, ?_⟩
  · cases i with
    | zero =>
      obtain rfl : _ = y := by simpa using hy
      rfl
    | succ i => rw [h.bytes i y (by simpa using hy), Nat.add_assoc, Nat.add_comm 1]
  · obtain ⟨hn, hall, hr⟩ | ⟨y, z, rfl, hn, hall, hz, hr⟩ := h.ended
    · exact .inl ⟨by rw [List.length_cons]; omega, List.forall_mem_cons.mpr ⟨hlen, hall⟩, hr⟩
    · refine .inr ⟨⟨_, (s.xmitTxf x).1⟩ :: y, z, rfl, by rw [List.length_cons]; omega,
        List.forall_mem_cons.mpr ⟨hlen, hall⟩, hz, ?_⟩
      rw [hr, List.length_cons, Nat.add_assoc, Nat.add_comm 1]

end

/-- A round with bytes left to send: the fragment's frame goes out, and the rounds behind it follow if it is accepted. -/
theorem sendDataLoop_succ {fragment encode : Bool} {b : List (BitVec 8)} {j : Nat} (fuel : Nat) (s : State)
    (hj : dataCapacity encode * j < b.length) :
    sendDataLoop fragment encode (fuel + 1) (b.drop (dataCapacity encode * j)) (dataCapacity encode * j) s =
      if (s.xmitTxf (s.fragmentFrame fragment encode b j)).1 = (s.fragmentFrame fragment encode b j).wr.val then
        sendDataLoop fragment encode fuel (b.drop (dataCapacity encode * (j + 1)))
          (min b.length (dataCapacity encode * (j + 1))) (s.xmitTxf (s.fragmentFrame fragment encode b j)).2
      else (s.xmitTxf (s.fragmentFrame fragment encode b j)).2.raise .sendMismatch (dataCapacity encode * j) := by
  have htotal := min_add_dataCount encode b.length j
  rw [Nat.min_eq_right (Nat.le_of_lt hj)] at htotal
  have hrest : b.drop (dataCapacity encode * j) ≠ [] := by
    rw [Ne, List.drop_eq_nil_iff]
    omega
  rw [sendDataLoop, if_neg hrest, ← drop_dataCount, ← htotal, ← List.length_drop]
  rfl

/-- The rounds from fragment `j` on, with as many rounds allowed as bytes are left. -/
theorem sendDataLoop_sendsFragments (fragment encode : Bool) (q : BitVec 8) (b : List (BitVec 8)) :
    ∀ (fuel j : Nat) (s : State), b.length - dataCapacity encode * j ≤ fuel → j ≤ fragmentCount encode b.length →
      s.seq = q + BitVec.ofNat 8 j → ∃ l, sendsFragments fragment encode q b j s
        (sendDataLoop fragment encode fuel (b.drop (dataCapacity encode * j))
          (min b.length (dataCapacity encode * j)) s) l
  | 0, j, s, hfuel, hj, _ => by
    have hlast := lt_fragmentCount_iff encode b.length j
    rw [sendDataLoop, Nat.min_eq_left (by omega)]
    exact ⟨[], sendsFragments_nil (by omega)⟩
  | fuel + 1, j, s, hfuel, hj, hq => by
    have hlast := lt_fragmentCount_iff encode b.length j
    by_cases hlt : dataCapacity encode * j < b.length
    · obtain ⟨hok, hmeta, hx⟩ := State.fragmentFrame_spec fragment encode b j hq
      have hpos := dataCapacity_pos encode
      rw [Nat.min_eq_right (Nat.le_of_lt hlt), sendDataLoop_succ fuel s hlt]
      split
      · next hacc =>
        have hseq : (s.xmitTxf (s.fragmentFrame fragment encode b j)).2.seq = q + BitVec.ofNat 8 (j + 1) := by
          rw [State.xmitTxf_seq, hq, BitVec.ofNat_add, BitVec.add_assoc]
          rfl
        obtain ⟨l, hl⟩ := sendDataLoop_sendsFragments fragment encode q b fuel (j + 1) _
          (by rw [Nat.mul_add]; omega) (by omega) hseq
        exact ⟨_, sendsFragments_cons hx hok hmeta hacc hl⟩
      · next hrej => exact ⟨_, sendsFragments_rejected hx hok hmeta (by omega) hrej⟩
    · rw [sendDataLoop, if_pos (List.drop_eq_nil_iff.mpr (by omega)), Nat.min_eq_left (by omega)]
      exact ⟨[], sendsFragments_nil (by omega)⟩

/-- `SND.DATA` sends the fragments from number 0 on. -/
theorem exec_sndData (fragment encode : Bool) (b : List (BitVec 8)) (s : State) :
    ∃ t l, exec (.sndData fragment encode b) s = .next t ∧ sendsFragments fragment encode s.seq b 0 s t l := by
  obtain ⟨l, hl⟩ := sendDataLoop_sendsFragments fragment encode s.seq b b.length 0 s (by omega) (Nat.zero_le _) (by simp)
  rw [Nat.mul_zero, Nat.min_zero, List.drop_zero] at hl
  exact ⟨_, l, rfl, hl⟩

/-- Settles O47. -/
theorem sndDataFrames : Obligations.SndDataFrames := by
  intro fragment encode b s
  obtain ⟨t, l, hexec, hl⟩ := exec_sndData fragment encode b s
  obtain ⟨hsent, hseq, hsame, hans, -⟩ := hl.sends
  have hbytes := hl.bytes
  have hend := hl.ended
  simp only [Nat.zero_add] at hbytes hend
  exact ⟨t, l, hexec, hsame, hl.frames.1, hl.frames.2, hl.sameMeta, hsent, hseq, hbytes, hans, hend⟩

/-! ### The fragmentation property -/

/-- Input bytes of one fragment. -/
theorem length_fragmentInput (encode : Bool) (b : List (BitVec 8)) (j : Nat) :
    (fragmentInput encode b j).length = min (dataCapacity encode) (b.length - dataCapacity encode * j) := by
  rw [fragmentInput, List.length_take, List.length_drop]

/-- Input bytes of the first `n` fragments. -/
theorem sum_length_fragmentInput (encode : Bool) (b : List (BitVec 8)) : ∀ n,
    ((List.range n).map fun j => (fragmentInput encode b j).length).sum = min b.length (dataCapacity encode * n)
  | 0 => by simp
  | n + 1 => by
    rw [List.range_succ, List.map_append, List.sum_append, sum_length_fragmentInput encode b n, List.map_singleton,
      List.sum_singleton, length_fragmentInput, Nat.mul_add]
    omega

/-- `FRAG` of a fragment that is not the last. -/
theorem frag_fragmentBytes {fragment encode : Bool} {q : BitVec 8} {b : List (BitVec 8)} {j : Nat}
    (hj : j + 1 < fragmentCount encode b.length) :
    ∃ y, (fragmentBytes fragment encode q b j)[1]? = some y ∧ y.getLsbD 4 = true := by
  have hmore : (fragment || decide (j + 1 < fragmentCount encode b.length)) = true := by simp [hj]
  refine ⟨_, congrArg (fun c => some (BitVec.ofNat 8 ((if encode then 32 else 0) + c))) (if_pos hmore), ?_⟩
  cases encode <;> decide

/-- Settles O48: T's script rules out a fragment that is not accepted whole. -/
theorem fragmentation : Obligations.Fragmentation := by
  intro fragment encode b s hscript
  obtain ⟨t, l, hexec, -, -, -, -, hsent, -, hbytes, hans, hend⟩ := sndDataFrames fragment encode b s
  have hwhole : ∀ (j : Nat) (x : Sent), j < fragmentCount encode b.length → l[j]? = some x →
      x.accepted = x.bytes.length := fun j x hj hx => by rw [hans j x _ hx (hscript j hj), hbytes j x hx]
  obtain ⟨hlen, hall, hresult⟩ | ⟨y, z, rfl, hlen, -, hz, -⟩ := hend
  · refine ⟨t, hexec, hresult, ?_, fun j hj => ⟨?_, frag_fragmentBytes hj⟩, ?_⟩
    · rw [hsent]
      congr 1
      apply List.ext_getElem
      · simp [hlen]
      · intro j h1 h2
        have hx := List.getElem?_eq_getElem h1
        have hb := hbytes j _ hx
        have ha := hwhole j _ (hlen ▸ h1) hx
        rw [List.getElem_map, List.getElem_range, ← hb, ← ha]
    · have hlt := (lt_fragmentCount_iff encode b.length (j + 1)).mp hj
      rw [length_fragmentInput]
      rw [Nat.mul_add] at hlt
      omega
    · have hlast := lt_fragmentCount_iff encode b.length (fragmentCount encode b.length)
      rw [sum_length_fragmentInput]
      omega
  · rw [List.length_append, List.length_singleton] at hlen
    exact absurd (hwhole y.length z (by omega) (by simp)) hz

end Sys2Proof.Machine
end

section
/-! One iteration of the running RCV.LISTEN (R243 to R256): the step of each state of the receiver after the accounting and
the query, and its three ends: it waits, it takes bytes and goes on, or it fails. -/

namespace Sys2Proof.Machine

/-! ### After the accounting, and after the query -/

/-- The machine after the sample of the reset input and the accounting of an iteration (R244). -/
def State.accounted (s : State) : State := s.sampleRst.2.accountTime

/-- The machine after the `T.avail` query of an iteration (R311). -/
def State.queried (s : State) : State := s.accounted.arrive

@[simp] theorem State.accounted_rxState (s : State) : s.accounted.rxState = s.rxState := by simp [State.accounted]

@[simp] theorem State.accounted_rxFrame (s : State) : s.accounted.rxFrame = s.rxFrame := by simp [State.accounted]

@[simp] theorem State.accounted_frame (s : State) (g : FrameSel) : s.accounted.frame g = s.frame g := by
  simp [State.accounted]

@[simp] theorem State.accounted_t (s : State) : s.accounted.t = s.t := by simp [State.accounted]

@[simp] theorem State.accounted_cfg (s : State) : s.accounted.cfg = s.cfg := by simp [State.accounted]

@[simp] theorem State.queried_rxUnbounded (s : State) : s.queried.rxUnbounded = s.rxUnbounded := by
  simp [State.queried, State.accounted]

@[simp] theorem State.queried_rxExtended (s : State) : s.queried.rxExtended = s.rxExtended := by
  simp [State.queried, State.accounted]

@[simp] theorem State.queried_rxBudget (s : State) : s.queried.rxBudget.toNat = s.charged := by
  rw [State.queried, State.arrive_rxBudget]
  exact s.charged_eq

@[simp] theorem State.queried_rxFrame (s : State) : s.queried.rxFrame = s.rxFrame := by simp [State.queried]

@[simp] theorem State.queried_frame (s : State) (g : FrameSel) : s.queried.frame g = s.frame g := by simp [State.queried]

@[simp] theorem State.queried_cfg (s : State) : s.queried.cfg = s.cfg := by simp [State.queried]

@[simp] theorem State.queried_inbound (s : State) : s.queried.t.inbound = s.available := rfl

@[simp] theorem State.queried_nextFrameByte (s : State) : s.queried.nextFrameByte =
    fetchFrameByte s.cfg.profile (s.frame s.rxFrame).wr.val s.available := by simp [State.nextFrameByte]

/-- An iteration with a budget of ticks left, in each state of the receiver (R248 to R256). -/
theorem step_of_iterates {s : State} (hit : s.iterates) (htime : s.outOfTime = false) :
    (s.rxState = .idle → step s = .next (rxIdle s.queried)) ∧
      (s.rxState = .rxNode → step s = .next (rxNode s.queried)) ∧
      (s.rxState = .rxModule → step s = .next (rxModule s.queried)) ∧
      (s.rxState = .rxSignal → step s = .next (rxSignal s.queried)) ∧
      (s.rxState = .rxHeader → step s = .next (rxHeader s.queried)) ∧
      (s.rxState = .rxPayload → step s = .next (rxPayload s.accounted)) := by
  have hstep : step s = .next (rxStep s.accounted) := step_rxStep hit htime
  have hst : ∀ st, s.rxState = st → s.accounted.rxState = st := fun st h => s.accounted_rxState.trans h
  rw [hstep]
  refine ⟨fun h => ?_, fun h => ?_, fun h => ?_, fun h => ?_, fun h => ?_, fun h => ?_⟩ <;> rw [rxStep, hst _ h] <;> rfl

/-! ### The ways an iteration ends -/

section
variable {s u : State} {st st' : RxState} {inb r : List (BitVec 8)}

/-- Waiting: the accounting and the query, nothing else. -/
theorem State.goesOn_queried (hl : s.listening = true) : s.goesOn s.queried s.rxState s.available := by
  refine ⟨s.sameAroundReceive_arrive, ?_, ?_, s.queried_rxBudget, s.queried_rxExtended, ?_, rfl⟩
  · simp [State.queried, State.accounted, hl]
  · simp [State.queried, State.accounted]
  · simp [State.queried]

/-- The receiver goes on to another state. -/
theorem State.goesOn_goTo (h : s.goesOn u st inb) : s.goesOn (u.goTo st') st' inb := by
  obtain ⟨hsame, hl, hr, hb, he, -, hinb⟩ := h
  exact ⟨hsame, hl, hr, hb, he, rfl, hinb⟩

/-- Bytes are taken from T. -/
theorem State.sameAroundReceive_leave (h : s.sameAroundReceive u) : s.sameAroundReceive (u.leave r) := h

theorem State.goesOn_leave (h : s.goesOn u st inb) : s.goesOn (u.leave r) st r := by
  obtain ⟨hsame, hl, hr, hb, he, hst, -⟩ := h
  exact ⟨hsame, hl, hr, hb, he, hst, rfl⟩

/-- The working frame is written. -/
theorem State.goesOn_setFrame (x : Frame) (h : s.goesOn u st inb) : s.goesOn (u.setFrame s.rxFrame x) st inb := by
  obtain ⟨⟨hframe, hsame⟩, hl, hr, hb, he, hst, hinb⟩ := h
  refine ⟨⟨fun g hg => (State.frame_setFrame_other u x hg).trans (hframe g hg), by simpa using hsame⟩, ?_⟩
  simpa using ⟨hl, hr, hb, he, hst, hinb⟩

end

/-- Bytes taken and the working frame written after the query. -/
theorem State.goesOn_write {s : State} (hl : s.listening = true) (r : List (BitVec 8)) (x : Frame) :
    s.goesOn ((s.queried.leave r).setFrame s.rxFrame x) s.rxState r :=
  State.goesOn_setFrame x (State.goesOn_leave (State.goesOn_queried hl))

/-- Digits that are none: the bytes are consumed and the operation fails (R249 to R251, R254, R263). -/
theorem State.failsWith_malformed (s : State) (r : List (BitVec 8)) :
    s.failsWith ((s.queried.leave r).rxFail .malformedField) .malformedField ∧
      s.sameAroundReceive ((s.queried.leave r).rxFail .malformedField) ∧
      ((s.queried.leave r).rxFail .malformedField).t.inbound = r := by
  obtain ⟨hfail, hsame⟩ := State.failsWith_rxFail .malformedField
    (State.sameAroundReceive_leave (r := r) s.sameAroundReceive_arrive)
    ((State.leave_frame _ _ _).trans (s.queried_frame _))
  exact ⟨hfail, hsame, by simp⟩

/-- A metadata field was read, with its separator (R249 to R252): `val` is what its digits say, `store` writes it. -/
theorem State.fieldRead {s t : State} {α : Type} {val : Option α} {store : α → Frame} {st : RxState}
    {r : List (BitVec 8)} (hl : s.listening = true)
    (hends : (∃ v, val = some v ∧ t = ((s.queried.leave r).setFrame s.rxFrame (store v)).goTo st) ∨
      (val = none ∧ t = (s.queried.leave r).rxFail .malformedField)) :
    t.t.inbound = r ∧ ((∃ v, val = some v ∧ s.goesOn t st r ∧ t.frame s.rxFrame = store v) ∨
      (val = none ∧ s.failsWith t .malformedField ∧ s.sameAroundReceive t)) := by
  obtain ⟨v, hv, rfl⟩ | ⟨hv, rfl⟩ := hends
  · exact ⟨by simp, .inl ⟨v, hv, State.goesOn_goTo (State.goesOn_write hl r (store v)), by simp⟩⟩
  · obtain ⟨hfail, hsame, hinb⟩ := s.failsWith_malformed r
    exact ⟨hinb, .inr ⟨hv, hfail, hsame⟩⟩

/-- The failure exit takes no byte. -/
theorem State.failsWith_accounted (s : State) (c : Cause) :
    s.failsWith (s.accounted.rxFail c) c ∧ s.sameAroundReceive (s.accounted.rxFail c) ∧ (s.accounted.rxFail c).t = s.t := by
  obtain ⟨hfail, hsame⟩ := State.failsWith_rxFail c s.sameAroundReceive_accountTime (s.accounted_frame s.rxFrame)
  exact ⟨hfail, hsame, (State.rxFail_t _ _ _).trans s.accounted_t⟩

end Sys2Proof.Machine
end

section
/-! The statements about the receiver (R242 to R262). -/

namespace Sys2Proof.Machine

/-- A budget read as two's complement (R242, R246). -/
theorem toInt_of_unboundedBudget (b : BitVec 32) :
    if b.toInt < 0 then unboundedBudget b = true
    else unboundedBudget b = false ∧ ((b.setWidth 31).toNat : Int) = b.toInt := by
  have hlt := b.isLt
  rw [unboundedBudget, BitVec.msb_eq_toInt]
  split
  · next h => exact decide_eq_true h
  · next h =>
    rw [BitVec.toInt_eq_toNat_cond] at h ⊢
    refine ⟨decide_eq_false h, ?_⟩
    rw [BitVec.toNat_setWidth]
    split <;> omega

/-- The first tick sample of the script is taken while it lasts. -/
theorem State.now_of_ticks {s : State} {x : BitVec 32} {r : List (BitVec 32)} (h : s.ticks = x :: r) :
    s.now = (x, { s with ticks := r }) := by simp [State.now, h]

/-- The entry of `RCV.LISTEN`, field by field (R242). -/
theorem exec_rcvListen (f : FrameSel) (b : BitVec 32) (s : State) : ∃ t, exec (.rcvListen f b) s = .next t ∧
    (∀ g, t.frame g = if g = f then (s.frame f).clear else s.frame g) ∧
    (t.txf = s.txf ∧ t.seq = s.seq ∧ t.rxState = .idle ∧ t.rxExtended = false ∧ t.listening = true ∧ t.rxFrame = f ∧
      t.t = s.t ∧ t.host = s.host ∧ t.rst = s.rst ∧ t.cfg = s.cfg) ∧
    (t.rxLast = s.now.1 ∧ t.ticks = s.now.2.ticks ∧ t.draws = s.now.2.draws) ∧
    t.rxUnbounded = unboundedBudget b ∧
      t.rxBudget = if unboundedBudget b then s.rxBudget else b.setWidth 31 := by
  refine ⟨_, rfl, fun g => ?_, by simp, ⟨rfl, by simp, by simp⟩, rfl, rfl⟩
  have hframe := State.frame_setFrame_eq s.now.2 f g (s.frame f).clear
  rw [State.now_frame] at hframe
  cases g <;> exact hframe

/-- Settles O49. -/
theorem listenEntry : Obligations.ListenEntry := by
  intro f b s
  have hread := toInt_of_unboundedBudget b
  obtain ⟨t, hexec, hframe, ⟨htxf, hseq, hst, hext, hl, hf, ht, hhost, hrst, hcfg⟩, ⟨hlast, hticks, hdraws⟩, hunb,
    hbudget⟩ := exec_rcvListen f b s
  have hown : t.frame f = (s.frame f).clear := (hframe f).trans (if_pos rfl)
  refine ⟨t, hexec, by rw [hown]; rfl, fun a => by rw [hown]; rfl, by rw [hown]; exact ⟨rfl, rfl, rfl⟩,
    fun g hg => (hframe g).trans (if_neg hg), htxf, hseq, hst, hext, hl, hf, ht, hhost, hrst, hcfg, fun x r h => ?_, ?_⟩
  · rw [hlast, hticks, hdraws, State.now_of_ticks h]
    exact ⟨rfl, rfl, rfl⟩
  · rw [hunb, hbudget]
    split at hread
    · next hneg =>
      rw [if_pos hneg, if_pos hread]
      exact ⟨hread, rfl⟩
    · next hpos =>
      obtain ⟨hbounded, hval⟩ := hread
      rw [if_neg hpos, hbounded, if_neg Bool.false_ne_true]
      exact ⟨rfl, hval⟩

/-- An iteration that finds the budget at zero (R245). -/
theorem step_timeout {s : State} (hit : s.iterates) (htime : s.outOfTime = true) :
    step s = .next (s.accounted.rxFail .budgetExhausted) := by
  have htimed : s.sampleRst.2.accountTime.timedOut = true := s.timedOut_accountTime.trans htime
  rw [step_iterates hit, rxIteration, if_pos htimed]
  rfl

/-- Settles O50: the failure exit right after the accounting. -/
theorem timeoutEndsListen : Obligations.TimeoutEndsListen := by
  intro s hit htime
  obtain ⟨hfail, hsame, ht⟩ := s.failsWith_accounted .budgetExhausted
  refine ⟨_, step_timeout hit htime, hfail, hsame, ht, ?_⟩
  obtain ⟨hbounded, hspent⟩ : s.rxUnbounded = false ∧ s.rxBudget.toNat ≤ s.elapsed := by
    simpa [State.outOfTime] using htime
  rw [State.rxFail_rxBudget]
  refine s.charged_eq.trans ?_
  rw [State.charged, hbounded, if_neg Bool.false_ne_true]
  omega

/-- The factor of the one extension (R247). -/
theorem extBytes_eq (p : Config.WireProfile) :
    Config.extBytes p = (match p with | .rawBinary => 77 | .asciiHex => 204) := by
  cases p <;> rfl

/-- Settles O51: waiting, going on without an extension, going on with it. -/
theorem idleAndExtension : Obligations.IdleAndExtension := by
  intro s hit htime hst
  have hwait : s.goesOn s.queried .idle s.available := hst ▸ State.goesOn_queried hit.2.1
  have hstep := (step_of_iterates hit htime).1 hst
  obtain ⟨hempty, hidle⟩ | ⟨hbytes, hidle⟩ := rxIdle_cases s.queried
  · rw [State.queried_inbound] at hempty
    refine ⟨_, hstep, by rw [hidle, State.queried_frame], ?_⟩
    rw [if_pos (.inl hempty), if_pos hempty, hidle]
    exact hwait
  · rw [State.queried_inbound] at hbytes
    refine ⟨_, hstep, by rw [hidle]; simp, ?_⟩
    obtain ⟨hnone, hext⟩ | ⟨hbounded, hfirst, byteTimes, draws, hext⟩ := s.queried.extendBudget_cases
    · rw [State.queried_rxUnbounded, State.queried_rxExtended] at hnone
      rw [if_pos (.inr hnone), if_neg hbytes, hidle, hext]
      exact State.goesOn_goTo hwait
    · rw [State.queried_rxUnbounded] at hbounded
      rw [State.queried_rxExtended] at hfirst
      rw [if_neg (by simp [hbounded, hfirst, hbytes]), hidle, hext]
      obtain ⟨hsame, hl, hr, -⟩ := hwait
      refine ⟨hsame, hl, hr, rfl, rfl, rfl, ?_⟩
      show (BitVec.ofNat 31
        (min (s.queried.rxBudget.toNat + _ * Config.extBytes s.queried.cfg.profile) 2147483647)).toNat = _
      rw [BitVec.toNat_ofNat, Nat.mod_eq_of_lt (by omega), State.queried_rxBudget, State.queried_cfg, extBytes_eq]
      rfl

/-- Settles O52: each of the three states waits, or takes the bytes of its field and stores it or fails. -/
theorem metadataStates : Obligations.MetadataStates := by
  intro s hit htime
  have hwait : s.goesOn s.queried s.rxState s.available ∧ s.queried.frame s.rxFrame = s.frame s.rxFrame :=
    ⟨State.goesOn_queried hit.2.1, s.queried_frame _⟩
  obtain ⟨-, hnode, hmodule, hsignal, -⟩ := step_of_iterates hit htime
  refine ⟨fun hst => ?_, fun hst => ?_, fun hst => ?_⟩ <;> rw [hst] at hwait
  · rw [hnode hst]
    obtain ⟨hshort, hrun⟩ | ⟨c1, c0, p, r, hbytes, hends⟩ := rxNode_cases s.queried
    · exact ⟨fun _ => ⟨_, congrArg _ hrun, hwait⟩, fun c1 c0 p r h => absurd hshort (by simp [h])⟩
    · simp only [State.queried_rxFrame, State.queried_frame, State.queried_inbound] at hbytes hends
      refine ⟨fun h => absurd h (by simp [hbytes]), fun _ _ _ _ h => ⟨_, rfl, ?_⟩⟩
      cases hbytes.symm.trans h
      obtain ⟨hinb, ⟨v, hv, h⟩ | ⟨hv, h⟩⟩ := State.fieldRead hit.2.1 hends <;> rw [hv] <;> exact ⟨hinb, h⟩
  · rw [hmodule hst]
    obtain ⟨hshort, hrun⟩ | ⟨c3, c2, c1, c0, p, r, hbytes, hends⟩ := rxModule_cases s.queried
    · exact ⟨fun _ => ⟨_, congrArg _ hrun, hwait⟩, fun c3 c2 c1 c0 p r h => absurd hshort (by simp [h])⟩
    · simp only [State.queried_rxFrame, State.queried_frame, State.queried_inbound] at hbytes hends
      refine ⟨fun h => absurd h (by simp [hbytes]), fun _ _ _ _ _ _ h => ⟨_, rfl, ?_⟩⟩
      cases hbytes.symm.trans h
      obtain ⟨hinb, ⟨v, hv, h⟩ | ⟨hv, h⟩⟩ := State.fieldRead hit.2.1 hends <;> rw [hv] <;> exact ⟨hinb, h⟩
  · rw [hsignal hst]
    obtain ⟨hshort, hrun⟩ | ⟨c1, c0, p, r, hbytes, hends⟩ := rxSignal_cases s.queried
    · exact ⟨fun _ => ⟨_, congrArg _ hrun, hwait⟩, fun c1 c0 p r h => absurd hshort (by simp [h])⟩
    · simp only [State.queried_rxFrame, State.queried_frame, State.queried_inbound] at hbytes hends
      refine ⟨fun h => absurd h (by simp [hbytes]), fun _ _ _ _ h => ⟨_, rfl, ?_⟩⟩
      cases hbytes.symm.trans h
      obtain ⟨hinb, ⟨v, hv, h⟩ | ⟨hv, h⟩⟩ := State.fieldRead hit.2.1 hends <;> rw [hv] <;> exact ⟨hinb, h⟩

/-- The extent after one byte more. -/
theorem Frame.wr_put {x : Frame} (hroom : x.wr.val < 64) (v : BitVec 8) : (x.put v).wr.val = x.wr.val + 1 := by
  obtain ⟨-, hwr, -⟩ | ⟨hfull, -⟩ := Frame.put_spec x v
  · exact hwr
  · omega

/-- A byte appended to the working frame. -/
theorem State.goesOn_appendByte {s : State} (hl : s.listening = true) (v : BitVec 8) (r : List (BitVec 8)) :
    s.goesOn (s.queried.appendByte v r) s.rxState r ∧
      (s.queried.appendByte v r).frame s.rxFrame = (s.frame s.rxFrame).put v := by
  rw [State.appendByte, State.queried_rxFrame, State.queried_frame]
  exact ⟨State.goesOn_write hl r _, State.frame_setFrame _ _ _⟩

/-- An iteration that waits for a frame byte (R253, R256): it goes on waiting, fails, or appends the byte; the third header
byte leads to `RxPayload`. -/
theorem step_frameByte {s : State} (hit : s.iterates) (htime : s.outOfTime = false)
    (hroom : (s.frame s.rxFrame).wr.val < 64)
    (hst : s.rxState = .rxHeader ∨ (s.rxState = .rxPayload ∧ 1 ≤ (s.frame s.rxFrame).lengthField ∧
      (s.frame s.rxFrame).lengthField ≤ 61 ∧ (s.frame s.rxFrame).wr.val < 3 + (s.frame s.rxFrame).lengthField)) :
    ∃ t, step s = .next t ∧
      ((s.queried.nextFrameByte = none ∧ t = s.queried) ∨
        (∃ r, s.queried.nextFrameByte = some (none, r) ∧ t = (s.queried.leave r).rxFail .malformedField) ∨
        (∃ v r, s.queried.nextFrameByte = some (some v, r) ∧ t.frame s.rxFrame = (s.frame s.rxFrame).put v ∧
          s.goesOn t (if s.rxState = .rxHeader ∧ (s.frame s.rxFrame).wr.val = 2 then .rxPayload else s.rxState) r)) := by
  have happend := State.goesOn_appendByte hit.2.1
  obtain ⟨-, -, -, -, hheader, hpayload⟩ := step_of_iterates hit htime
  obtain hst | ⟨hst, hone, hmax, hleft⟩ := hst
  · refine ⟨_, hheader hst, ?_⟩
    obtain h | h | ⟨v, r, hbyte, hends⟩ := rxHeader_cases s.queried
    · exact .inl h
    · exact .inr (.inl h)
    · refine .inr (.inr ⟨v, r, hbyte, ?_⟩)
      rw [State.queried_rxFrame, State.queried_frame, Frame.wr_put hroom] at hends
      obtain ⟨hthird, hrun⟩ | ⟨hthird, hrun⟩ := hends <;> rw [hrun]
      · rw [if_pos ⟨hst, by omega⟩]
        exact ⟨(happend v r).2, State.goesOn_goTo (happend v r).1⟩
      · rw [if_neg (fun h => hthird (by omega))]
        exact ⟨(happend v r).2, (happend v r).1⟩
  · refine ⟨_, hpayload hst, ?_⟩
    have hrun : rxPayload s.accounted = rxPayloadByte s.queried := by
      have hcases := rxPayload_cases s.accounted
      rw [State.accounted_rxFrame, State.accounted_frame] at hcases
      obtain ⟨h, -⟩ | ⟨h, -⟩ | ⟨-, -, ⟨-, hrun⟩ | ⟨h, -⟩⟩ := hcases
      · omega
      · omega
      · exact hrun
      · omega
    rw [hrun, if_neg (by simp [hst])]
    obtain h | h | ⟨v, r, hbyte, hrun⟩ := rxPayloadByte_cases s.queried
    · exact .inl h
    · exact .inr (.inl h)
    · rw [hrun]
      exact .inr (.inr ⟨v, r, hbyte, (happend v r).2, (happend v r).1⟩)

/-- Settles O53. -/
theorem frameBytes : Obligations.FrameBytes := by
  intro s hit htime hok hroom hst
  rw [← Frame.lengthField_eq] at hst
  obtain ⟨t, hstep, hends⟩ := step_frameByte hit htime hroom hst
  rw [State.queried_nextFrameByte] at hends
  refine ⟨t, hstep, ?_⟩
  obtain ⟨hnone, rfl⟩ | ⟨r, hbad, rfl⟩ | ⟨v, r, hbyte, hframe, hgoes⟩ := hends
  · rw [hnone]
    exact ⟨State.goesOn_queried hit.2.1, s.queried_frame _⟩
  · rw [hbad]
    exact s.failsWith_malformed r
  · obtain ⟨-, hwr, hrd, -⟩ | ⟨hfull, -⟩ := Frame.put_spec (s.frame s.rxFrame) v
    · rw [hbyte, hframe]
      exact ⟨hgoes, hwr, hrd, Frame.byte_put_wr hok hroom v, Frame.sameBytesOutside_put _ v, Frame.sameMeta_put _ v⟩
    · omega

/-- An iteration in `RxPayload` with the payload collected waits for the terminator (R256). -/
theorem step_terminator {s : State} (hit : s.iterates) (htime : s.outOfTime = false) (hst : s.rxState = .rxPayload)
    (hone : 1 ≤ (s.frame s.rxFrame).lengthField) (hmax : (s.frame s.rxFrame).lengthField ≤ 61)
    (hall : 3 + (s.frame s.rxFrame).lengthField ≤ (s.frame s.rxFrame).wr.val) :
    step s = .next (rxTerminator s.queried) := by
  obtain ⟨-, -, -, -, -, hpayload⟩ := step_of_iterates hit htime
  have hcases := rxPayload_cases s.accounted
  rw [State.accounted_rxFrame, State.accounted_frame] at hcases
  rw [hpayload hst]
  obtain ⟨h, -⟩ | ⟨h, -⟩ | ⟨-, -, ⟨h, -⟩ | ⟨-, hrun⟩⟩ := hcases
  · omega
  · omega
  · omega
  · exact congrArg _ hrun

/-- Settles O54. -/
theorem terminator : Obligations.Terminator := by
  intro s hit htime hst hone hmax hall
  rw [← Frame.lengthField_eq] at hone hmax hall
  have hwait : s.goesOn s.queried .rxPayload s.available := hst ▸ State.goesOn_queried hit.2.1
  refine ⟨_, step_terminator hit htime hst hone hmax hall, ?_⟩
  obtain ⟨hshort, hrun⟩ | ⟨a, b, r, hbytes, hrun⟩ := rxTerminator_cases s.queried
  · rw [State.queried_inbound] at hshort
    rw [hrun, if_pos hshort]
    exact ⟨s.queried_frame _, hwait⟩
  · rw [State.queried_inbound] at hbytes
    rw [hrun, hbytes, if_neg (by simp)]
    exact ⟨by simp, State.goesOn_goTo (State.goesOn_leave hwait)⟩

/-- Settles O55: the failure exit before the query. -/
theorem lengthTest : Obligations.LengthTest := by
  intro s hit htime hst
  obtain ⟨-, -, -, -, -, hpayload⟩ := step_of_iterates hit htime
  have hcases := rxPayload_cases s.accounted
  rw [State.accounted_rxFrame, State.accounted_frame] at hcases
  rw [hpayload hst, ← Frame.lengthField_eq]
  refine ⟨fun hzero => ?_, fun hlarge => ?_⟩
  · obtain ⟨-, hrun⟩ | ⟨h, -⟩ | ⟨h, -⟩ := hcases
    · exact ⟨_, congrArg _ hrun, s.failsWith_accounted .lengthZero⟩
    · omega
    · omega
  · obtain ⟨h, -⟩ | ⟨-, hrun⟩ | ⟨-, h, -⟩ := hcases
    · omega
    · exact ⟨_, congrArg _ hrun, s.failsWith_accounted .lengthTooLarge⟩
    · omega

/-! ### The completed frame -/

/-- A delivered frame ends the operation and stays as received (R257). -/
theorem State.deliver_spec (s : State) (n : Nat) : s.sameAroundExit (s.deliver n) ∧
    (s.deliver n).frame s.rxFrame = s.frame s.rxFrame ∧ (s.deliver n).rxState = .idle ∧ (s.deliver n).listening = false ∧
      (s.deliver n).result = some (okResult n [] false) := by
  have hframe : ∀ g, (s.deliver n).frame g = s.frame g := fun g => by simp [State.deliver]
  exact ⟨⟨fun g _ => hframe g, rfl, rfl, rfl, rfl, rfl, rfl, rfl, rfl, rfl, rfl, rfl, rfl, rfl⟩, hframe _, rfl, rfl, rfl⟩

/-- A Command that is not the module's is delivered, whatever its length says (R258). -/
theorem exec_typeCommand_deliver {s : State} (hop : (s.frame s.rxFrame).byte 3 ≠ s.cfg.opcExec) (enc : Bool)
    (h : HeaderFields) : exec (.typeCommand enc h) s = .next (s.deliver 1) := by
  show execTypeCommand h s = _
  rw [execTypeCommand, State.commandDone, if_neg hop, if_neg hop, ite_self]

/-- Settles O56. -/
theorem completedFrames : Obligations.CompletedFrames := by
  intro h enc low s
  refine ⟨fun i n hi => ?_, _, rfl, ?_, ?_⟩
  · obtain ⟨rfl, rfl⟩ | ⟨rfl, rfl⟩ | ⟨rfl, rfl, hop⟩ | ⟨rfl, rfl⟩ | ⟨rfl, rfl⟩ := hi
    · exact ⟨_, rfl, s.deliver_spec 0⟩
    · exact ⟨_, rfl, s.deliver_spec 0⟩
    · exact ⟨_, exec_typeCommand_deliver hop enc h, s.deliver_spec 1⟩
    · exact ⟨_, rfl, s.deliver_spec 2⟩
    · exact ⟨_, rfl, s.deliver_spec 3⟩
  · exact ⟨fun g hg => State.rxFail_frame_other s _ _ hg, by simp [State.sameEnvironment]⟩
  · refine ⟨rfl, ?_, ?_, rfl, rfl⟩ <;> rw [State.rxFail_frame]
    · rfl
    · exact ⟨rfl, rfl, rfl⟩

end Sys2Proof.Machine
end

section
/-! The intercept (R258 to R262): the module command, the Ack if one is asked for, and the two ways out. -/

namespace Sys2Proof.Machine

/-- The Ack of an intercept as it goes out (R217, R260): its bytes, and what it keeps of `TXF`. -/
theorem State.ackFrame_spec (s : State) (op : BitVec 8) (r : List (BitVec 8)) :
    (s.ackFrame op r).ok = true ∧ s.txf.sameMeta (s.ackFrame op r) ∧
      (s.ackFrame op r).wr.val = 4 + min r.length 60 ∧
      (s.stamped (s.ackFrame op r)).content = [BitVec.ofNat 8 (1 + min r.length 60), 0x02, s.seq, op] ++ r.take 60 := by
  obtain ⟨y, hy, hok, hmeta, -, -, hcontent⟩ := Frame.build_string s.txf 2 op r
  have hlen := congrArg List.length hcontent
  rw [Frame.length_content, List.length_append, List.length_take] at hlen
  rw [State.ackFrame, ← hy, Frame.content_stamped s hok, hcontent]
  refine ⟨hok, hmeta, ?_, rfl⟩
  rw [hlen, Nat.min_comm]
  simp only [List.length_cons, List.length_nil]

/-- The intercept up to its way out: from `s` to `w` the module executed `p` and answered `a`, the frames of `l` were handed
over, and nothing else but `TXF` and `SEQ` changed. -/
structure State.intercepted (s w : State) (p : List (BitVec 8)) (a : Option (List (BitVec 8))) (l : List Sent) :
    Prop where
  answer : (s.execModule p).1 = a
  sends : (s.execModule p).2.sends w l
  frames : ∀ g, w.frame g = s.frame g
  sameMeta : s.txf.sameMeta w.txf
  ok : s.txf.ok = true → w.txf.ok = true
  result : w.result = s.result

/-- No Ack goes out. -/
theorem State.intercepted_nil (s : State) (p : List (BitVec 8)) :
    s.intercepted (s.execModule p).2 p (s.execModule p).1 [] where
  answer := rfl
  sends := State.sends_nil rfl rfl rfl rfl (State.sameAroundSend_refl _)
  frames := fun g => s.execModule_frame p g
  sameMeta := by
    rw [State.execModule_txf]
    exact Frame.sameMeta_refl _
  ok := fun h => (s.execModule_txf p).symm ▸ h
  result := s.execModule_result p

/-- One Ack goes out. -/
theorem State.intercepted_ack (s : State) (p : List (BitVec 8)) {x : Frame} (hok : x.ok = true)
    (hmeta : s.txf.sameMeta x) :
    s.intercepted ((s.execModule p).2.xmitTxf x).2 p (s.execModule p).1
      [⟨((s.execModule p).2.stamped x).content, ((s.execModule p).2.xmitTxf x).1⟩] where
  answer := rfl
  sends := State.sends_cons (State.sentOnce_xmitTxf _ x) (State.perform_xmitTxf _ x)
    (State.sends_nil rfl rfl rfl rfl (State.sameAroundSend_refl _))
  frames := fun g => (State.xmitTxf_frame _ x g).trans (s.execModule_frame p g)
  sameMeta := by
    rw [State.xmitTxf_txf]
    exact hmeta
  ok := fun _ => by
    rw [State.xmitTxf_txf]
    exact Frame.ok_stamped _ hok
  result := (State.xmitTxf_result _ x).trans (s.execModule_result p)

/-- The intercept, said once (R259 to R262): what was executed and handed over, and the way out. -/
theorem State.intercept_spec (s : State) (ack : Bool) (p : List (BitVec 8)) : ∃ w a l, s.intercepted w p a l ∧
    ((a = none ∧ l = [] ∧ w.txf = s.txf ∧ s.intercept ack p = w.rxFail .execFailed) ∨
      (∃ r, a = some r ∧ ack = false ∧ l = [] ∧ w.txf = s.txf ∧ s.intercept ack p = w.rxLoop) ∨
      (∃ r n, a = some r ∧ ack = true ∧
        l = [⟨[BitVec.ofNat 8 (1 + min r.length 60), 0x02, s.seq, s.cfg.opcExec] ++ r.take 60, n⟩] ∧
        ((n = 4 + min r.length 60 ∧ s.intercept ack p = w.rxLoop) ∨
          (n ≠ 4 + min r.length 60 ∧ s.intercept ack p = w.rxFail .sendMismatch (min r.length 60))))) := by
  obtain ⟨ha, hend⟩ | ⟨r, ha, hends⟩ := s.intercept_cases ack p
  · exact ⟨_, _, _, s.intercepted_nil p, .inl ⟨ha, rfl, s.execModule_txf p, hend⟩⟩
  · obtain ⟨hack, hend⟩ | ⟨hack, u, x, rfl, rfl, hends⟩ := hends
    · exact ⟨_, _, _, s.intercepted_nil p, .inr (.inl ⟨r, ha, hack, rfl, s.execModule_txf p, hend⟩)⟩
    · obtain ⟨hok, hmeta, hwr, hcontent⟩ := (s.execModule p).2.ackFrame_spec (s.execModule p).2.cfg.opcExec r
      have h := s.intercepted_ack p hok (by rwa [State.execModule_txf] at hmeta)
      rw [hcontent] at h
      rw [hwr] at hends
      rw [State.execModule_seq] at h
      refine ⟨_, _, _, h, .inr (.inr ⟨r, _, ha, hack, ?_, hends⟩)⟩
      rw [State.execModule_cfg]

/-! ### The ways out -/

@[simp] theorem State.rxLoop_t (s : State) : s.rxLoop.t = s.t := by simp [State.rxLoop]

@[simp] theorem State.rxLoop_seq (s : State) : s.rxLoop.seq = s.seq := by simp [State.rxLoop]

@[simp] theorem State.rxLoop_txf (s : State) : s.rxLoop.txf = s.txf := by simp [State.rxLoop]

@[simp] theorem State.rxLoop_listening (s : State) : s.rxLoop.listening = s.listening := by simp [State.rxLoop]

@[simp] theorem State.rxLoop_result (s : State) : s.rxLoop.result = s.result := by simp [State.rxLoop]

@[simp] theorem State.rxLoop_ticks (s : State) : s.rxLoop.ticks = s.ticks := by simp [State.rxLoop]

@[simp] theorem State.rxLoop_draws (s : State) : s.rxLoop.draws = s.draws := by simp [State.rxLoop]

theorem State.rxLoop_frame (s : State) (g : FrameSel) :
    s.rxLoop.frame g = if g = s.rxFrame then (s.frame s.rxFrame).clear else s.frame g := by
  rw [State.rxLoop, State.goTo_frame, State.frame_setFrame_eq]

section
variable {s w : State} {p : List (BitVec 8)} {a : Option (List (BitVec 8))} {l : List Sent}

/-- What holds after every intercept (R259 to R263), and `rest` besides. -/
def State.afterIntercept (s t : State) (p : List (BitVec 8)) (a : Option (List (BitVec 8))) (rest : Prop) : Prop :=
  t.t.executed = s.t.executed ++ [⟨p, a⟩] ∧
    (∀ g, g ≠ s.rxFrame → t.frame g = s.frame g) ∧ s.txf.sameMeta t.txf ∧ t.rxBudget = s.rxBudget ∧
    t.rxUnbounded = s.rxUnbounded ∧ t.rxLast = s.rxLast ∧ t.rxExtended = s.rxExtended ∧ t.host = s.host ∧
    t.ticks = s.ticks ∧ t.rst = s.rst ∧ t.cfg = s.cfg ∧ t.t.inbound = s.t.inbound ∧
    t.rxFrame = s.rxFrame ∧ (t.frame s.rxFrame).isClear = true ∧
    (s.frame s.rxFrame).sameMeta (t.frame s.rxFrame) ∧ t.rxState = .idle ∧ rest

/-- The registers and the environment across the part before the way out. -/
theorem State.intercepted.fields (h : s.intercepted w p a l) :
    w.t.executed = s.t.executed ++ [⟨p, a⟩] ∧ w.rxBudget = s.rxBudget ∧
      w.rxUnbounded = s.rxUnbounded ∧ w.rxLast = s.rxLast ∧ w.rxExtended = s.rxExtended ∧ w.host = s.host ∧
      w.ticks = s.ticks ∧ w.rst = s.rst ∧ w.cfg = s.cfg ∧ w.t.inbound = s.t.inbound ∧ w.rxFrame = s.rxFrame ∧
      w.listening = s.listening ∧ w.t.sent = s.t.sent ++ l ∧ w.seq = s.seq + BitVec.ofNat 8 l.length := by
  obtain ⟨answers, draws, hu⟩ := s.execModule_spec p
  obtain ⟨hsent, hseq, hsame, -, -⟩ := h.sends
  rw [hu] at hsent hseq hsame
  obtain ⟨-, hb, hun, hlast, hext, hl, hf, hhost, hticks, hrst, hcfg, hinb, -, -, -, hexec⟩ := hsame
  rw [h.answer] at hexec
  exact ⟨hexec, hb, hun, hlast, hext, hhost, hticks, hrst, hcfg, hinb, hf, hl, hsent, hseq⟩

/-- The way out that goes on listening (R261). -/
theorem State.intercepted.rxLoop {rest : Prop} (h : s.intercepted w p a l) (hrest : rest) :
    s.afterIntercept w.rxLoop p a rest := by
  obtain ⟨hexec, hb, hun, hlast, hext, hhost, hticks, hrst, hcfg, hinb, hf, -⟩ := h.fields
  have hown : w.rxLoop.frame s.rxFrame = (s.frame s.rxFrame).clear := by simp [State.rxLoop_frame, hf, h.frames]
  refine ⟨?_, fun g hg => ?_, ?_⟩
  · simpa using hexec
  · rw [State.rxLoop_frame, hf, if_neg hg, h.frames]
  · rw [hown]
    simpa [State.rxLoop, Frame.isClear, Frame.sameMeta] using
      ⟨h.sameMeta, hb, hun, hlast, hext, hhost, hticks, hrst, hcfg, hinb, hf, hrest⟩

/-- The working frame after the failure exit. -/
theorem State.intercepted.rxFail_frame (h : s.intercepted w p a l) (c : Cause) (v : Nat) :
    (w.rxFail c v).frame s.rxFrame = (s.frame s.rxFrame).clear := by
  obtain ⟨-, -, -, -, -, -, -, -, -, -, hf, -⟩ := h.fields
  rw [← hf, State.rxFail_frame, h.frames]

/-- The failure exit (R263). -/
theorem State.intercepted.rxFail {rest : Prop} (h : s.intercepted w p a l) (c : Cause) (v : Nat) (hrest : rest) :
    s.afterIntercept (w.rxFail c v) p a rest := by
  obtain ⟨hexec, hb, hun, hlast, hext, hhost, hticks, hrst, hcfg, hinb, hf, -⟩ := h.fields
  refine ⟨?_, fun g hg => ?_, ?_⟩
  · simpa using hexec
  · rw [State.rxFail_frame_other _ _ _ (by rw [hf]; exact hg), h.frames]
  · rw [h.rxFail_frame]
    simpa [Frame.isClear, Frame.sameMeta] using
      ⟨h.sameMeta, hb, hun, hlast, hext, hhost, hticks, hrst, hcfg, hinb, hf, hrest⟩

theorem State.intercepted.failsWith (h : s.intercepted w p a l) (c : Cause) (v : Nat) :
    s.failsWith (w.rxFail c v) c v := by
  refine ⟨rfl, ?_⟩
  rw [h.rxFail_frame]
  exact ⟨rfl, ⟨rfl, rfl, rfl⟩, rfl, rfl⟩

end

/-- An intercepted Command whose text lies in the frame (R258). -/
theorem exec_typeCommand_intercept {s : State} {h : HeaderFields} (enc : Bool)
    (hop : (s.frame s.rxFrame).byte 3 = s.cfg.opcExec) (hlen : h.length.toNat ≤ 61) : exec (.typeCommand enc h) s =
      .next (s.intercept h.ackReq ((s.frame s.rxFrame).bytes 4 (h.length.toNat - 1))) := by
  have hin : 3 + h.length.toNat ≤ Config.frameCap := by
    show _ ≤ 64
    omega
  show execTypeCommand h s = _
  rw [execTypeCommand, if_pos hin, State.commandDone, if_pos hop]

/-- The script of T answers the module command while it lasts. -/
theorem State.execModule_of_answers {s : State} {x : Option (List (BitVec 8))} {r : List (Option (List (BitVec 8)))}
    (h : s.t.execAnswers = x :: r) (p : List (BitVec 8)) : (s.execModule p).1 = x := by
  simp [State.execModule, State.execAnswer, h]

/-- Settles O57. -/
theorem intercept : Obligations.Intercept := by
  intro h enc s hop
  refine ⟨fun hlong => ?_, fun hlen => ?_⟩
  · have hout : ¬ 3 + h.length.toNat ≤ Config.frameCap := by
      show ¬ _ ≤ 64
      omega
    show execTypeCommand h s = _
    rw [execTypeCommand, if_neg hout, if_pos hop]
    rfl
  · obtain ⟨w, a, l, hw, hends⟩ := s.intercept_spec h.ackReq ((s.frame s.rxFrame).bytes 4 (h.length.toNat - 1))
    have hans : ∀ x r, s.t.execAnswers = x :: r → a = x := fun x r hx =>
      hw.answer.symm.trans (State.execModule_of_answers hx _)
    obtain ⟨-, -, -, -, -, -, -, -, -, -, -, hl, hsent, hseq⟩ := hw.fields
    rw [exec_typeCommand_intercept enc hop hlen]
    obtain ⟨rfl, rfl, htxf, hrun⟩ | ⟨r, rfl, hack, rfl, htxf, hrun⟩ | ⟨r, n, rfl, hack, rfl, hends⟩ := hends
    · have hseq0 : w.seq = s.seq := by simpa using hseq
      rw [List.append_nil] at hsent
      exact ⟨_, none, congrArg _ hrun, hans, hw.rxFail _ _ ⟨hw.failsWith _ _, by simpa using ⟨hsent, hseq0, htxf⟩⟩⟩
    · have hseq0 : w.seq = s.seq := by simpa using hseq
      rw [List.append_nil] at hsent
      refine ⟨_, some r, congrArg _ hrun, hans, hw.rxLoop ?_⟩
      simpa [hack] using ⟨hl, hw.result, hsent, hseq0, htxf⟩
    · obtain ⟨hn, hrun⟩ | ⟨hn, hrun⟩ := hends
      · refine ⟨_, some r, congrArg _ hrun, hans, hw.rxLoop ?_⟩
        simp only [hack, if_true, State.rxLoop_t, State.rxLoop_seq, State.rxLoop_listening, State.rxLoop_result]
        exact ⟨n, hsent, hseq, by rw [if_pos hn]; exact ⟨hl, hw.result⟩⟩
      · refine ⟨_, some r, congrArg _ hrun, hans, hw.rxFail _ _ ?_⟩
        simp only [hack, if_true, State.rxFail_t, State.rxFail_seq]
        exact ⟨n, hsent, hseq, by rw [if_neg hn]; exact hw.failsWith _ _⟩

end Sys2Proof.Machine
end

section
/-! What an instruction can do, said once: what it keeps of the frames, which calls of T and of the tick input it makes, and
how it leaves the receiver. -/

namespace Sys2Proof.Machine

/-! ### The frames -/

/-- Metadata and well-formedness of every frame are kept. -/
structure State.keepsFrames (s t : State) : Prop where
  sameMeta : ∀ g, (s.frame g).sameMeta (t.frame g)
  txfMeta : s.txf.sameMeta t.txf
  ok : (∀ g, (s.frame g).ok = true) → ∀ g, (t.frame g).ok = true
  txfOk : s.txf.ok = true → t.txf.ok = true

section
variable {s t : State}

/-- The host's frames are untouched. -/
theorem State.keepsFrames_of_frames (hframes : ∀ g, t.frame g = s.frame g) (hmeta : s.txf.sameMeta t.txf)
    (hok : s.txf.ok = true → t.txf.ok = true) : s.keepsFrames t where
  sameMeta := fun g => (hframes g).symm ▸ Frame.sameMeta_refl _
  txfMeta := hmeta
  ok := fun h g => (hframes g).symm ▸ h g
  txfOk := hok

/-- One of the host's frames is replaced by `x`. -/
theorem State.keepsFrames_of_write {f : FrameSel} {x : Frame} (hframes : ∀ g, t.frame g = if g = f then x else s.frame g)
    (hmeta : (s.frame f).sameMeta x) (hok : (s.frame f).ok = true → x.ok = true) (htxf : t.txf = s.txf) :
    s.keepsFrames t where
  sameMeta := fun g => by
    rw [hframes]
    split
    · next h => exact h ▸ hmeta
    · exact Frame.sameMeta_refl _
  txfMeta := htxf ▸ Frame.sameMeta_refl _
  ok := fun h g => by
    rw [hframes]
    split
    · exact hok (h f)
    · exact h g
  txfOk := fun h => htxf ▸ h

theorem State.keepsFrames_refl (s : State) : s.keepsFrames s :=
  State.keepsFrames_of_frames (fun _ => rfl) (Frame.sameMeta_refl _) id

/-- A cleared frame stands where one was. -/
theorem State.keepsFrames_clear {f : FrameSel}
    (hframes : ∀ g, t.frame g = if g = f then (s.frame f).clear else s.frame g) (htxf : t.txf = s.txf) : s.keepsFrames t :=
  State.keepsFrames_of_write hframes (Frame.sameMeta_clear _) (fun _ => Frame.ok_clear _) htxf

theorem State.keepsFrames_trans {u : State} (h : s.keepsFrames t) (h' : t.keepsFrames u) : s.keepsFrames u where
  sameMeta := fun g => Frame.sameMeta_trans (h.sameMeta g) (h'.sameMeta g)
  txfMeta := Frame.sameMeta_trans h.txfMeta h'.txfMeta
  ok := fun hok => h'.ok (h.ok hok)
  txfOk := fun hok => h'.txfOk (h.txfOk hok)

/-- An operation of files 40 to 43 keeps the frames. -/
theorem frameOpEnds_keepsFrames {f : Option FrameSel} (h : frameOpEnds f s t) : s.keepsFrames t := by
  cases h with
  | error c => exact State.keepsFrames_of_frames (s.raise_frame c 0 false) (Frame.sameMeta_refl _) id
  | read v o b => exact State.keepsFrames_of_frames (s.answer_frame v o b) (Frame.sameMeta_refl _) id
  | write g x v o b hf hmeta hok =>
    refine State.keepsFrames_of_write (f := g) (x := x) (fun k => ?_) hmeta hok ?_
    · rw [State.answer_frame, State.frame_setFrame_eq]
    · exact State.setFrame_txf _ _ _

end

/-- The failure exit of the receiver, frame by frame. -/
theorem State.rxFail_frame_eq (s : State) (c : Cause) (v : Nat) (g : FrameSel) :
    (s.rxFail c v).frame g = if g = s.rxFrame then (s.frame s.rxFrame).clear else s.frame g := by
  split
  · next h => rw [h, State.rxFail_frame]
  · next h => exact State.rxFail_frame_other s c v h

/-! ### The calls -/

/-- The calls `n`, then the module commands of `le`, then the sends of `ls`. -/
def callList (n : List Call) (le : List Executed) (ls : List Sent) : List Call :=
  n ++ (le.map fun x => .exec x.command) ++ ls.map fun x => .send x.bytes

/-- From `s` to `t` the machine made the calls `n`, then executed the commands of `le`, then handed over the frames of
`ls`; T and the tick input are as those calls leave them. -/
structure State.makesCalls (s t : State) (n : List Call) (le : List Executed) (ls : List Sent) : Prop where
  executed : t.t.executed = s.t.executed ++ le
  sent : t.t.sent = s.t.sent ++ ls
  inputs : (s.performAll (callList n le ls)).sameInputs t

theorem State.makesCalls_nil {s t : State} (h : s.sameInputs t) : s.makesCalls t [] [] [] where
  executed := by rw [h.1, List.append_nil]
  sent := by rw [h.1, List.append_nil]
  inputs := h

theorem State.makesCalls_of_sends {s t : State} {l : List Sent} (h : s.sends t l) : s.makesCalls t [] [] l := by
  obtain ⟨hsent, -, ⟨-, -, -, -, -, -, -, -, -, -, -, -, -, -, -, hexec⟩, -, hcalls⟩ := h
  exact ⟨by rw [hexec, List.append_nil], hsent, hcalls⟩

/-- A module command, then the Ack if there is one. -/
theorem State.makesCalls_of_intercepted {s w t : State} {p : List (BitVec 8)} {a : Option (List (BitVec 8))}
    {l : List Sent} (h : s.intercepted w p a l) (ht : w.sameInputs t) : s.makesCalls t [] [⟨p, a⟩] l := by
  obtain ⟨hexec, -, -, -, -, -, -, -, -, -, -, -, hsent, -⟩ := h.fields
  obtain ⟨-, -, -, -, h1, h2, h3⟩ := h.sends
  obtain ⟨h1', h2', h3'⟩ := ht
  exact ⟨by rw [h1', hexec], by rw [h1', hsent], h1'.trans h1, h2'.trans h2, h3'.trans h3⟩

/-! ### How an instruction ends -/

/-- How an instruction of the command port or a header row ends, with the calls it has made. -/
inductive execEnds (i : Instr) (s t : State) : Prop
  /-- An operation that completes at once. -/
  | completes (ls : List Sent) (hi : ∃ c, encode i = .command c) (hcalls : s.makesCalls t [] [] ls)
      (hrx : t.rxState = s.rxState ∧ t.listening = s.listening ∧ t.rxFrame = s.rxFrame)
  /-- The entry of `RCV.LISTEN`. -/
  | listens (hi : ∃ c, encode i = .command c) (hcalls : s.makesCalls t [.now] [] [])
      (hrx : t.rxState = .idle ∧ t.listening = true ∧ (t.frame t.rxFrame).isClear = true)
  /-- The dispatch of a completed frame: the operation ends, or goes on with a cleared frame. -/
  | dispatches (le : List Executed) (ls : List Sent) (hi : ∃ w, encode i = .header w) (hcalls : s.makesCalls t [] le ls)
      (hone : (le = [] ∧ ls = []) ∨ ∃ x, le = [x])
      (hrx : t.rxState = .idle ∧ (t.listening = false ∨
        (t.listening = s.listening ∧ (t.frame t.rxFrame).isClear = true)))

section
variable {i : Instr} {s t : State}

/-- The operations of files 40 to 43 are words of the command port. -/
theorem encode_frameOp (h : isFrameOp i = true) : ∃ c, encode i = .command c := by
  cases i
  case typeDataRaw | typeDataEnc | typeCommand | typeAck | typeNotice | typeReserved => cases h
  all_goals exact ⟨_, rfl⟩

theorem execEnds_frameOp (h : isFrameOp i = true) (hexec : exec i s = .next t) : s.keepsFrames t ∧ execEnds i s t := by
  obtain ⟨u, hu, hend⟩ := exec_frameOp h s
  obtain rfl : u = t := Host.Outcome.next.inj (hu.symm.trans hexec)
  obtain ⟨-, ⟨-, hst, -, -, -, -, hl, hf⟩, -, hticks, -, ht, hdraws, -⟩ := frameOpEnds_rest hend
  exact ⟨frameOpEnds_keepsFrames hend,
    .completes [] (encode_frameOp h) (State.makesCalls_nil ⟨ht, hticks, hdraws⟩) ⟨hst, hl, hf⟩⟩

/-- What a send leaves of the receiver's state. -/
theorem execEnds_sends {ls : List Sent} (hi : ∃ c, encode i = .command c) (h : s.sends t ls) : execEnds i s t := by
  obtain ⟨-, -, hsame, -, -⟩ := id h
  obtain ⟨hst, -, -, -, -, hl, hf, -⟩ := hsame
  exact .completes ls hi (State.makesCalls_of_sends h) ⟨hst, hl, hf⟩

/-- A frame delivered. -/
theorem execEnds_deliver (hi : ∃ w, encode i = .header w) (n : Nat) :
    s.keepsFrames (s.deliver n) ∧ execEnds i s (s.deliver n) :=
  ⟨State.keepsFrames_of_frames (fun g => by simp [State.deliver]) (Frame.sameMeta_refl _) id,
    .dispatches [] [] hi (State.makesCalls_nil ⟨rfl, rfl, rfl⟩) (.inl ⟨rfl, rfl⟩) ⟨rfl, .inl rfl⟩⟩

/-- A reserved type. -/
theorem execEnds_rxFail (hi : ∃ w, encode i = .header w) (c : Cause) :
    s.keepsFrames (s.rxFail c) ∧ execEnds i s (s.rxFail c) :=
  ⟨State.keepsFrames_clear (s.rxFail_frame_eq c 0) (s.rxFail_txf c 0),
    .dispatches [] [] hi (State.makesCalls_nil ⟨s.rxFail_t c 0, s.rxFail_ticks c 0, s.rxFail_draws c 0⟩)
      (.inl ⟨rfl, rfl⟩) ⟨rfl, .inl rfl⟩⟩

/-- An intercepted Command, by either way out. -/
theorem execEnds_intercept (hi : ∃ w, encode i = .header w) (ack : Bool) (p : List (BitVec 8)) :
    s.keepsFrames (s.intercept ack p) ∧ execEnds i s (s.intercept ack p) := by
  obtain ⟨w, a, l, hw, hends⟩ := s.intercept_spec ack p
  obtain ⟨-, -, -, -, -, -, -, -, -, -, -, hl, -⟩ := hw.fields
  have hkeeps : s.keepsFrames w := State.keepsFrames_of_frames hw.frames hw.sameMeta hw.ok
  have hfail : ∀ c v, s.keepsFrames (w.rxFail c v) ∧ execEnds i s (w.rxFail c v) := fun c v =>
    ⟨State.keepsFrames_trans hkeeps (State.keepsFrames_clear (w.rxFail_frame_eq c v) (w.rxFail_txf c v)),
      .dispatches _ l hi (State.makesCalls_of_intercepted hw ⟨w.rxFail_t c v, w.rxFail_ticks c v, w.rxFail_draws c v⟩)
        (.inr ⟨_, rfl⟩) ⟨rfl, .inl rfl⟩⟩
  have hloop : s.keepsFrames w.rxLoop ∧ execEnds i s w.rxLoop := by
    have hclear : (w.rxLoop.frame w.rxLoop.rxFrame).isClear = true := by simp [State.rxLoop, Frame.isClear]
    exact ⟨State.keepsFrames_trans hkeeps (State.keepsFrames_clear w.rxLoop_frame w.rxLoop_txf),
      .dispatches _ l hi (State.makesCalls_of_intercepted hw ⟨w.rxLoop_t, w.rxLoop_ticks, w.rxLoop_draws⟩)
        (.inr ⟨_, rfl⟩) ⟨rfl, .inr ⟨w.rxLoop_listening.trans hl, hclear⟩⟩⟩
  obtain ⟨-, -, -, hrun⟩ | ⟨-, -, -, -, -, hrun⟩ | ⟨r, n, -, -, -, ⟨-, hrun⟩ | ⟨-, hrun⟩⟩ := hends <;> rw [hrun]
  · exact hfail _ _
  · exact hloop
  · exact hloop
  · exact hfail _ _

/-- A completed Command: delivered, intercepted, or a fault. -/
theorem execEnds_typeCommand {enc : Bool} {h : HeaderFields} (hexec : exec (.typeCommand enc h) s = .next t) :
    s.keepsFrames t ∧ execEnds (.typeCommand enc h) s t := by
  by_cases hop : (s.frame s.rxFrame).byte 3 = s.cfg.opcExec
  · by_cases hlen : h.length.toNat ≤ 61
    · obtain rfl := Host.Outcome.next.inj ((exec_typeCommand_intercept enc hop hlen).symm.trans hexec)
      exact execEnds_intercept ⟨_, rfl⟩ _ _
    · rw [(intercept h enc s hop).1 (by omega)] at hexec
      cases hexec
  · obtain rfl := Host.Outcome.next.inj ((exec_typeCommand_deliver hop enc h).symm.trans hexec)
    exact execEnds_deliver ⟨_, rfl⟩ 1

/-- The composite sends of one frame build a well-formed frame with a header, with the metadata of `TXF`, and send it
(R215 to R218). -/
theorem exec_sendsOne (op : BitVec 8) (b : List (BitVec 8)) (s : State)
    (hi : i = .sndCmd op b ∨ i = .sndCmdAck op b ∨ i = .sndAck op b ∨ i = .sndNotice b) :
    ∃ x v c, exec i s = .next (s.sendBuilt x v c) ∧ x.ok = true ∧ s.txf.sameMeta x ∧ 3 ≤ x.wr.val := by
  have hstring : ∀ type, (((s.txf.build type).setOpcode op).setString b).ok = true ∧
      s.txf.sameMeta (((s.txf.build type).setOpcode op).setString b) ∧
      3 ≤ (((s.txf.build type).setOpcode op).setString b).wr.val := fun type => by
    obtain ⟨y, rfl, hok, hmeta, -, -, hcontent⟩ := Frame.build_string s.txf type op b
    refine ⟨hok, hmeta, ?_⟩
    rw [← Frame.length_content, hcontent]
    simp
  obtain rfl | rfl | rfl | rfl := hi
  · exact ⟨_, _, _, rfl, hstring 1⟩
  · obtain ⟨hok, hmeta, hwr⟩ := hstring 1
    exact ⟨_, _, _, rfl, Frame.ok_mapByte1 hok _, hmeta, hwr⟩
  · exact ⟨_, _, _, rfl, hstring 2⟩
  · obtain ⟨hset, -⟩ := Frame.payloadSet_setNotice (Frame.ok_build s.txf 3) b
    refine ⟨_, _, _, rfl, Frame.ok_setNotice (Frame.ok_build _ _) b,
      Frame.sameMeta_trans (Frame.sameMeta_build _ 3) (Frame.sameMeta_of_payloadSet hset), ?_⟩
    obtain ⟨hwr, -⟩ := hset
    omega

/-- A composite send of one frame makes one call. -/
theorem State.sends_sendBuilt (s : State) (x : Frame) (v : Nat) (c : Bool) :
    s.sends (s.sendBuilt x v c) [⟨(s.stamped x).content, (s.xmitTxf x).1⟩] := by
  obtain ⟨t, e, rfl⟩ := s.sendBuilt_spec x v c
  rw [e]
  exact State.sends_cons (s.sentOnce_xmitTxf x) (s.perform_xmitTxf x)
    (State.sends_nil rfl rfl rfl rfl (State.sameAroundSend_refl _))

theorem State.keepsFrames_sendBuilt (s : State) {x : Frame} (v : Nat) (c : Bool) (hok : x.ok = true)
    (hmeta : s.txf.sameMeta x) : s.keepsFrames (s.sendBuilt x v c) := by
  obtain ⟨t, e, rfl⟩ := s.sendBuilt_spec x v c
  rw [e]
  exact State.keepsFrames_of_frames (s.xmitTxf_frame x) ((s.xmitTxf_txf x).symm ▸ hmeta)
    fun _ => (s.xmitTxf_txf x).symm ▸ Frame.ok_stamped s hok

/-- `SND.XMIT` of a frame with a header makes one call. -/
theorem exec_sndXmit_sends {f : FrameSel} (hheader : 3 ≤ (s.frame f).wr.val) : ∃ t, exec (.sndXmit f) s = .next t ∧
    s.sends t [⟨(s.stamped (s.frame f)).content, (s.xmitFrame f).1⟩] ∧ s.keepsFrames t := by
  obtain ⟨u, hexec, hu⟩ := exec_sndXmit hheader
  obtain ⟨answers, draws, hstate⟩ := s.xmitFrame_spec f
  refine ⟨_, hexec, ?_, ?_⟩
  · subst hu
    exact State.sends_cons (s.sentOnce_xmitFrame f) (s.perform_xmitFrame f)
      (State.sends_nil rfl rfl rfl rfl (State.sameAroundSend_refl _))
  · have hframes : ∀ g, u.frame g = (s.setFrame f (s.stamped (s.frame f))).frame g := fun g => by
      rw [hu, hstate]
      cases g <;> rfl
    have htxf : u.txf = s.txf := by
      rw [hu, hstate]
      exact State.setFrame_txf _ _ _
    exact State.keepsFrames_of_write (fun g => (hframes g).trans (State.frame_setFrame_eq _ _ _ _)) ⟨rfl, rfl, rfl⟩
      (Frame.ok_stamped s) htxf

/-- On a frame without a header `SND.XMIT` makes none (R121, R211). -/
theorem exec_sndXmit_missing {f : FrameSel} (hheader : (s.frame f).wr.val < 3) :
    exec (.sndXmit f) s = .next (s.raise .headerMissing) := by
  obtain ⟨h, -⟩ | ⟨-, h⟩ := s.needHeader_cases f fun x =>
    if (s.xmitFrame f).1 = x.wr.val then (s.xmitFrame f).2.answer x.wr.val
    else (s.xmitFrame f).2.raise .sendMismatch (s.xmitFrame f).1
  · omega
  · exact congrArg _ h

/-- What every instruction that completes keeps, and how it ends. -/
theorem exec_ends (hexec : exec i s = .next t) : s.keepsFrames t ∧ execEnds i s t := by
  have hone : ∀ op b, (i = .sndCmd op b ∨ i = .sndCmdAck op b ∨ i = .sndAck op b ∨ i = .sndNotice b) →
      (∃ c, encode i = .command c) → s.keepsFrames t ∧ execEnds i s t := fun op b h hi => by
    obtain ⟨x, v, c, hrun, hok, hmeta, -⟩ := exec_sendsOne op b s h
    obtain rfl := Host.Outcome.next.inj (hrun.symm.trans hexec)
    exact ⟨s.keepsFrames_sendBuilt v c hok hmeta, execEnds_sends hi (s.sends_sendBuilt x v c)⟩
  cases i
  case typeDataRaw | typeDataEnc | typeAck | typeNotice =>
    obtain rfl := Host.Outcome.next.inj hexec
    exact execEnds_deliver ⟨_, rfl⟩ _
  case typeReserved =>
    obtain rfl := Host.Outcome.next.inj hexec
    exact execEnds_rxFail ⟨_, rfl⟩ _
  case typeCommand => exact execEnds_typeCommand hexec
  case sndCmd op b => exact hone op b (.inl rfl) ⟨_, rfl⟩
  case sndCmdAck op b => exact hone op b (.inr (.inl rfl)) ⟨_, rfl⟩
  case sndAck op b => exact hone op b (.inr (.inr (.inl rfl))) ⟨_, rfl⟩
  case sndNotice b => exact hone 0 b (.inr (.inr (.inr rfl))) ⟨_, rfl⟩
  case sndSeq =>
    obtain rfl := Host.Outcome.next.inj hexec
    exact ⟨State.keepsFrames_of_frames (fun g => by cases g <;> rfl) (Frame.sameMeta_refl _) id,
      .completes [] ⟨_, rfl⟩ (State.makesCalls_nil ⟨rfl, rfl, rfl⟩) ⟨rfl, rfl, rfl⟩⟩
  case sndXmit f =>
    by_cases hheader : 3 ≤ (s.frame f).wr.val
    · obtain ⟨u, hu, hsends, hkeeps⟩ := exec_sndXmit_sends hheader
      obtain rfl := Host.Outcome.next.inj (hu.symm.trans hexec)
      exact ⟨hkeeps, execEnds_sends ⟨_, rfl⟩ hsends⟩
    · obtain rfl := Host.Outcome.next.inj ((exec_sndXmit_missing (by omega)).symm.trans hexec)
      exact ⟨State.keepsFrames_of_frames (s.raise_frame _ _ _) (Frame.sameMeta_refl _) id,
        .completes [] ⟨_, rfl⟩ (State.makesCalls_nil ⟨rfl, rfl, rfl⟩) ⟨rfl, rfl, rfl⟩⟩
  case sndData fragment encode b =>
    obtain ⟨u, l, hu, hl⟩ := exec_sndData fragment encode b s
    obtain rfl := Host.Outcome.next.inj (hu.symm.trans hexec)
    refine ⟨State.keepsFrames_of_frames (fun g => ?_) hl.sameMeta hl.ok, execEnds_sends ⟨_, rfl⟩ hl.sends⟩
    cases g
    · exact hl.frames.1
    · exact hl.frames.2
  case rcvListen f b =>
    obtain ⟨u, hu, hframe, ⟨htxf, -, hst, -, hl, hf, ht, -⟩, ⟨-, hticks, hdraws⟩, -⟩ := exec_rcvListen f b s
    obtain rfl := Host.Outcome.next.inj (hu.symm.trans hexec)
    refine ⟨State.keepsFrames_clear hframe htxf, .listens ⟨_, rfl⟩ ⟨by simp [ht], by simp [ht], ?_⟩ ⟨hst, hl, ?_⟩⟩
    · exact ⟨by rw [ht]; exact (s.now_t).symm, hticks, hdraws⟩
    · rw [hf, hframe, if_pos rfl]
      rfl
  all_goals exact execEnds_frameOp rfl hexec

end

end Sys2Proof.Machine
end

section
/-! The invariant (R22, R33, R242 to R263): every instruction keeps it where it is executed, every iteration keeps it, so
every step does. -/

namespace Sys2Proof.Machine

/-! ### Reset -/

/-- Settles O7. -/
theorem resetValues : Obligations.ResetValues := by
  refine ⟨fun a => ?_, ?_⟩
  · have hzero : Frame.reset.byte a = 0 := Mem.read_nil a
    exact ⟨hzero, hzero, hzero⟩
  · exact ⟨rfl, rfl, rfl, rfl, rfl, rfl⟩

/-- Settles O8. -/
theorem resetSatisfiesInvariant : Obligations.ResetSatisfiesInvariant := by
  have h : State.reset.resetPulse.inv = true := State.resetPulse_inv _
  exact h

/-- Settles O11: the step is the reset pulse on the state without the sample. -/
theorem resetPulse : Obligations.ResetPulse := by
  intro s r hrst
  have hstep : step s = .next ({ s with rst := r } : State).resetPulse := by simp [step, State.sampleRst, hrst]
  exact ⟨_, hstep, rfl, rfl, rfl, rfl, rfl, rfl, rfl, rfl, rfl, rfl, rfl, rfl, rfl⟩

/-- Settles O17. -/
theorem statusAndCauseCodes : Obligations.StatusAndCauseCodes := by
  unfold Obligations.StatusAndCauseCodes
  decide

/-! ### A step runs what is fetched -/

theorem step_released {s : State} (h : s.sampleRst.1 = .released) : step s = s.sampleRst.2.run := by
  simp [step, h]

theorem State.run_of_fetch {s u : State} {w : Fetched} {i : Instr} (hf : s.fetch = some (w, u)) (hd : decode w = .ok i) :
    s.run = exec i u := by simp [State.run, hf, hd]

/-- Settles O6. -/
theorem stepRunsDecoded : Obligations.StepRunsDecoded := by
  intro s i hrst
  rw [step_released hrst]
  refine ⟨fun t r hl hhost hd => ?_, fun hl hst hd => ?_, fun hl hhost => ?_⟩
  · have hf : s.sampleRst.2.fetch = some (.command t, { s.sampleRst.2 with host := r }) := by
      simp [State.fetch, hl, hhost]
    exact State.run_of_fetch hf hd
  · have hf : s.sampleRst.2.fetch = some (.header (s.frame s.rxFrame).headerWord, s.sampleRst.2) := by
      simp [State.fetch, hl, hst]
    exact State.run_of_fetch hf hd
  · obtain ⟨rst, h⟩ := s.sampleRst_spec
    have hrst : rst = s.rst.tail := by rw [← s.sampleRst_rst, h]
    rw [h, hrst]
    simp [State.run, State.fetch, State.idleOrIterate, hl, hhost]

/-! ### The invariant of a state of the receiver -/

/-- The invariant speaks of the frames and three registers only. -/
theorem State.inv_congr {s t : State} (hframe : ∀ g, t.frame g = s.frame g) (htxf : t.txf = s.txf)
    (hst : t.rxState = s.rxState) (hl : t.listening = s.listening) (hf : t.rxFrame = s.rxFrame) (h : s.inv = true) :
    t.inv = true := by
  rw [State.inv_iff] at h ⊢
  simpa only [hframe, htxf, hst, hl, hf] using h

/-- The invariant while nothing listens. -/
theorem State.inv_of_idle {t : State} (hok : ∀ g, (t.frame g).ok = true) (htxf : t.txf.ok = true)
    (hst : t.rxState = .idle) (hl : t.listening = false) : t.inv = true :=
  t.inv_iff.mpr ⟨hok, htxf, by simp [hl], fun _ => hst⟩

/-- The invariant while `RCV.LISTEN` runs. -/
theorem State.inv_of_listening {t : State} (hok : ∀ g, (t.frame g).ok = true) (htxf : t.txf.ok = true)
    (hframe : rxFrameOk (t.frame t.rxFrame) t.rxState = true) (hl : t.listening = true) : t.inv = true :=
  t.inv_iff.mpr ⟨hok, htxf, fun _ => hframe, by simp [hl]⟩

theorem State.goTo_self {s : State} {st : RxState} (h : s.rxState = st) : s.goTo st = s := by
  subst h
  rfl

theorem State.appendByte_rxState (s : State) (v : BitVec 8) (r : List (BitVec 8)) :
    (s.appendByte v r).rxState = s.rxState := by simp [State.appendByte]

/-- The failure exit ends in the invariant. -/
theorem State.inv_rxFail {s : State} (h : s.inv = true) (c : Cause) (v : Nat) : (s.rxFail c v).inv = true := by
  obtain ⟨hok, htxf, -⟩ := s.inv_iff.mp h
  refine State.inv_of_idle (fun g => ?_) (by simpa using htxf) rfl rfl
  rw [State.rxFail_frame_eq]
  split
  · exact Frame.ok_clear _
  · exact hok g

/-- The `length` field is read from byte 0 alone, which a byte appended behind it keeps. -/
theorem Frame.lengthField_put {x : Frame} (hwr : 1 ≤ x.wr.val) (v : BitVec 8) :
    (x.put v).lengthField = x.lengthField := by
  rw [Frame.lengthField_eq, Frame.lengthField_eq, Frame.sameBytesOutside_put x v 0 (.inl hwr)]

section
variable {s : State} (h : s.inv = true) (hl : s.listening = true)
include h hl

/-- Bytes taken and the working frame written. -/
theorem State.inv_store {x : Frame} {st : RxState} (r : List (BitVec 8))
    (hx : (s.frame s.rxFrame).ok = true → x.ok = true) (hst : rxFrameOk x st = true) : (((s.leave r).setFrame s.rxFrame x).goTo st).inv = true := by
  obtain ⟨hok, htxf, -⟩ := s.inv_iff.mp h
  refine State.inv_of_listening (fun g => ?_) (by simpa using htxf) (by simpa using hst) (by simpa using hl)
  rw [State.goTo_frame, State.frame_setFrame_eq, State.leave_frame]
  split
  · exact hx (hok _)
  · exact hok g

theorem State.inv_appendByte {v : BitVec 8} (r : List (BitVec 8)) {st : RxState}
    (hst : rxFrameOk ((s.frame s.rxFrame).put v) st = true) : ((s.appendByte v r).goTo st).inv = true :=
  State.inv_store h hl r (fun hok => Frame.ok_put hok v) hst

/-- The receiver in another state that its working frame fits as well. -/
theorem State.inv_goTo {st : RxState} (hst : rxFrameOk (s.frame s.rxFrame) st = true) : (s.goTo st).inv = true := by
  obtain ⟨hok, htxf, -⟩ := s.inv_iff.mp h
  exact State.inv_of_listening (by simpa using hok) htxf (by simpa using hst) hl

theorem State.working_of_inv : rxFrameOk (s.frame s.rxFrame) s.rxState = true := by
  obtain ⟨-, -, hframe, -⟩ := s.inv_iff.mp h
  exact hframe hl

/-! ### The step of each state of the receiver -/

theorem rxIdle_inv (hst : s.rxState = .idle) : (rxIdle s).inv = true := by
  have hframe := State.working_of_inv h hl
  obtain ⟨-, hrun⟩ | ⟨-, hrun⟩ := rxIdle_cases s <;> rw [hrun]
  · exact h
  · rw [hst] at hframe
    have hext : s.extendBudget.inv = true := State.inv_congr (by simp) (by simp) (by simp) (by simp) (by simp) h
    exact State.inv_goTo hext (by simpa using hl)
      (by rw [State.extendBudget_frame, State.extendBudget_rxFrame]; exact hframe)

theorem rxNode_inv (hst : s.rxState = .rxNode) : (rxNode s).inv = true := by
  have hframe := State.working_of_inv h hl
  rw [hst] at hframe
  obtain ⟨-, hrun⟩ | ⟨c1, c0, p, r, -, ⟨v, -, hrun⟩ | ⟨-, hrun⟩⟩ := rxNode_cases s <;> rw [hrun]
  · exact h
  · exact State.inv_store h hl r id hframe
  · exact State.inv_rxFail (s := s.leave r) h _ _

theorem rxModule_inv (hst : s.rxState = .rxModule) : (rxModule s).inv = true := by
  have hframe := State.working_of_inv h hl
  rw [hst] at hframe
  obtain ⟨-, hrun⟩ | ⟨c3, c2, c1, c0, p, r, -, ⟨v, -, hrun⟩ | ⟨-, hrun⟩⟩ := rxModule_cases s <;> rw [hrun]
  · exact h
  · exact State.inv_store h hl r id hframe
  · exact State.inv_rxFail (s := s.leave r) h _ _

theorem rxSignal_inv (hst : s.rxState = .rxSignal) : (rxSignal s).inv = true := by
  have hframe := State.working_of_inv h hl
  rw [hst] at hframe
  obtain ⟨-, hrun⟩ | ⟨c1, c0, p, r, -, ⟨v, -, hrun⟩ | ⟨-, hrun⟩⟩ := rxSignal_cases s <;> rw [hrun]
  · exact h
  · refine State.inv_store h hl r id ?_
    simp only [rxFrameOk, Frame.isClear, Bool.and_eq_true, decide_eq_true_eq] at hframe ⊢
    omega
  · exact State.inv_rxFail (s := s.leave r) h _ _

theorem rxHeader_inv (hst : s.rxState = .rxHeader) : (rxHeader s).inv = true := by
  have hframe := State.working_of_inv h hl
  rw [hst] at hframe
  simp only [rxFrameOk, Bool.and_eq_true, decide_eq_true_eq] at hframe
  obtain ⟨-, hrun⟩ | ⟨r, -, hrun⟩ | ⟨v, r, -, hends⟩ := rxHeader_cases s
  · rw [hrun]
    exact h
  · rw [hrun]
    exact State.inv_rxFail (s := s.leave r) h _ _
  · obtain ⟨-, hwr, hrd, -⟩ | ⟨hfull, -⟩ := Frame.put_spec (s.frame s.rxFrame) v
    · obtain ⟨hthird, hrun⟩ | ⟨hthird, hrun⟩ := hends <;> rw [hrun]
      · exact State.inv_appendByte h hl r (by simp [rxFrameOk, hrd, hthird, hframe.2])
      · rw [← State.goTo_self ((State.appendByte_rxState s v r).trans hst)]
        refine State.inv_appendByte h hl r ?_
        simp only [rxFrameOk, hrd, Bool.and_eq_true, decide_eq_true_eq]
        omega
    · omega

omit hl in
theorem State.inv_arrive : s.arrive.inv = true :=
  State.inv_congr (by simp) (by simp) (by simp) (by simp) (by simp) h

theorem rxPayload_inv (hst : s.rxState = .rxPayload) : (rxPayload s).inv = true := by
  have hframe := State.working_of_inv h hl
  rw [hst] at hframe
  simp only [rxFrameOk, Bool.and_eq_true, Bool.or_eq_true, decide_eq_true_eq] at hframe
  obtain ⟨⟨hrd, hheader⟩, hextent⟩ := hframe
  have harrive := State.inv_arrive h
  have hl' : s.arrive.listening = true := by simpa using hl
  obtain ⟨-, hrun⟩ | ⟨-, hrun⟩ | ⟨hone, hmax, ⟨hleft, hrun⟩ | ⟨hall, hrun⟩⟩ := rxPayload_cases s <;> rw [hrun]
  · exact State.inv_rxFail h _ _
  · exact State.inv_rxFail h _ _
  · obtain ⟨-, hrun⟩ | ⟨r, -, hrun⟩ | ⟨v, r, -, hrun⟩ := rxPayloadByte_cases s.arrive <;> rw [hrun]
    · exact harrive
    · exact State.inv_rxFail (s := s.arrive.leave r) harrive _ _
    · obtain ⟨-, hwr, hrd', -⟩ | ⟨hfull, -⟩ := Frame.put_spec (s.frame s.rxFrame) v
      · have hlen := Frame.lengthField_put (x := s.frame s.rxFrame) (by omega) v
        rw [← State.goTo_self ((State.appendByte_rxState s.arrive v r).trans ((s.arrive_rxState).trans hst))]
        refine State.inv_appendByte harrive hl' r ?_
        simp only [State.arrive_frame, State.arrive_rxFrame, rxFrameOk, hwr, hrd', hlen, Bool.and_eq_true,
          Bool.or_eq_true, decide_eq_true_eq]
        omega
      · omega
  · obtain ⟨-, hrun⟩ | ⟨a, b, r, -, hrun⟩ := rxTerminator_cases s.arrive <;> rw [hrun]
    · exact harrive
    · refine State.inv_goTo (s := s.arrive.leave r) harrive hl' ?_
      simp only [State.leave_frame, State.leave_rxFrame, State.arrive_frame, State.arrive_rxFrame, rxFrameOk,
        Bool.and_eq_true, decide_eq_true_eq]
      omega

/-- The step of the receiver keeps the invariant, whatever its state (R248 to R256). -/
theorem rxStep_inv : (rxStep s).inv = true := by
  have harrive := State.inv_arrive h
  have hl' : s.arrive.listening = true := by simpa using hl
  have hst := s.arrive_rxState
  unfold rxStep
  split
  · next e => exact rxIdle_inv harrive hl' (hst.trans e)
  · next e => exact rxNode_inv harrive hl' (hst.trans e)
  · next e => exact rxModule_inv harrive hl' (hst.trans e)
  · next e => exact rxSignal_inv harrive hl' (hst.trans e)
  · next e => exact rxHeader_inv harrive hl' (hst.trans e)
  · next e => exact rxPayload_inv h hl e
  · exact h

theorem rxIteration_inv : (rxIteration s).inv = true := by
  have hacc : s.accountTime.inv = true := State.inv_congr (by simp) (by simp) (by simp) (by simp) (by simp) h
  obtain ⟨-, hrun⟩ | ⟨-, hrun⟩ := rxIteration_cases s <;> rw [hrun]
  · exact State.inv_rxFail hacc _ _
  · exact rxStep_inv hacc (by simpa using hl)

end

/-! ### Every instruction where it is executed -/

/-- A word of the command port, executed while nothing listens. -/
theorem exec_inv_command {i : Instr} {s t : State} (hi : ∃ c, encode i = .command c) (h : s.inv = true)
    (hl : s.listening = false) (hexec : exec i s = .next t) : t.inv = true := by
  obtain ⟨hok, htxf, -, hidle⟩ := s.inv_iff.mp h
  obtain ⟨hkeeps, hends⟩ := exec_ends hexec
  cases hends with
  | completes ls _ _ hrx =>
    obtain ⟨hst, hl', -⟩ := hrx
    exact State.inv_of_idle (hkeeps.ok hok) (hkeeps.txfOk htxf) (hst.trans (hidle hl)) (hl'.trans hl)
  | listens _ _ hrx =>
    obtain ⟨hst, hl', hclear⟩ := hrx
    exact State.inv_of_listening (hkeeps.ok hok) (hkeeps.txfOk htxf) (by rw [hst]; exact hclear) hl'
  | dispatches le ls hw _ _ _ =>
    obtain ⟨c, hc⟩ := hi
    obtain ⟨w, hw⟩ := hw
    cases hc.symm.trans hw

/-- A header row, in every state. -/
theorem exec_inv_header {i : Instr} {s t : State} (hi : ∃ w, encode i = .header w) (h : s.inv = true)
    (hexec : exec i s = .next t) : t.inv = true := by
  obtain ⟨hok, htxf, -⟩ := s.inv_iff.mp h
  obtain ⟨w, hw⟩ := hi
  obtain ⟨hkeeps, hends⟩ := exec_ends hexec
  cases hends with
  | completes ls hc _ _ =>
    obtain ⟨c, hc⟩ := hc
    cases hc.symm.trans hw
  | listens hc _ _ =>
    obtain ⟨c, hc⟩ := hc
    cases hc.symm.trans hw
  | dispatches le ls _ _ _ hrx =>
    obtain ⟨hst, hend⟩ := hrx
    cases hl : t.listening with
    | false => exact State.inv_of_idle (hkeeps.ok hok) (hkeeps.txfOk htxf) hst hl
    | true =>
      obtain hf | ⟨-, hclear⟩ := hend
      · cases hl.symm.trans hf
      · exact State.inv_of_listening (hkeeps.ok hok) (hkeeps.txfOk htxf) (by rw [hst]; exact hclear) hl

/-- What runs in a step with the reset input released: a word of the port while nothing listens, the header of a completed
frame, an iteration, or a wait. -/
theorem State.run_ends {s t : State} (hrun : s.run = .next t) :
    (∃ i c r, encode i = .command c ∧ s.listening = false ∧ exec i { s with host := r } = .next t) ∨
      (∃ i, encode i = .header (s.frame s.rxFrame).headerWord ∧ s.listening = true ∧ s.rxState = .done ∧
        exec i s = .next t) ∨
      (s.listening = true ∧ s.rxState ≠ .done ∧ t = rxIteration s) ∨
      (s.listening = false ∧ t = s) := by
  obtain ⟨w, u, i, hf, hd, he⟩ | ⟨w, u, r, -, -, he⟩ | ⟨hf, he⟩ := s.run_cases
  · obtain ⟨hcode, -⟩ := encodeOfDecode w i hd
    rw [hrun] at he
    obtain ⟨hl, hst, hf'⟩ | ⟨-, -, hf'⟩ | ⟨-, -, hf'⟩ | ⟨c, r, hl, hhost, hf'⟩ := s.fetch_cases
    · cases hf.symm.trans hf'
      exact .inr (.inl ⟨i, hcode, hl, hst, he.symm⟩)
    · cases hf.symm.trans hf'
    · cases hf.symm.trans hf'
    · cases hf.symm.trans hf'
      exact .inl ⟨i, c, r, hcode, hl, he.symm⟩
  · cases hrun.symm.trans he
  · obtain rfl := Host.Outcome.next.inj (hrun.symm.trans he)
    unfold State.idleOrIterate
    obtain ⟨-, -, hf'⟩ | ⟨hl, hst, -⟩ | ⟨hl, -⟩ | ⟨c, r, -, -, hf'⟩ := s.fetch_cases
    · cases hf.symm.trans hf'
    · exact .inr (.inr (.inl ⟨hl, hst, if_pos hl⟩))
    · exact .inr (.inr (.inr ⟨hl, if_neg (by simp [hl])⟩))
    · cases hf.symm.trans hf'

theorem State.run_inv {s t : State} (h : s.inv = true) (hrun : s.run = .next t) : t.inv = true := by
  obtain ⟨i, c, r, hi, hl, he⟩ | ⟨i, hi, -, -, he⟩ | ⟨hl, -, rfl⟩ | ⟨-, rfl⟩ := State.run_ends hrun
  · exact exec_inv_command (s := { s with host := r }) ⟨c, hi⟩ h hl he
  · exact exec_inv_header ⟨_, hi⟩ h he
  · exact rxIteration_inv h hl
  · exact h

/-- Settles O9: a step runs, is a reset, or is cut short by one. -/
theorem stepKeepsInvariant : Obligations.StepKeepsInvariant := by
  intro s t h hstep
  have hs : s.sampleRst.2.inv = true := State.inv_congr (by simp) (by simp) (by simp) (by simp) (by simp) h
  obtain ⟨-, he⟩ | ⟨-, he⟩ | ⟨k, -, he⟩ := step_cases s
  · exact State.run_inv hs (he.symm.trans hstep)
  · obtain rfl := Host.Outcome.next.inj (he.symm.trans hstep)
    exact State.resetPulse_inv _
  · obtain ⟨u, -, rfl⟩ := State.abandon_next (he.symm.trans hstep)
    exact State.cutShort_inv _ _ _

/-! ### No fault -/

/-- Every instruction but a Command whose text would leave the frame completes in every state. -/
theorem exec_completes (i : Instr) (s : State) (h : ∀ enc f, i = .typeCommand enc f → f.length.toNat ≤ 61) :
    ∃ t, exec i s = .next t := by
  cases i
  case typeCommand enc f =>
    by_cases hop : (s.frame s.rxFrame).byte 3 = s.cfg.opcExec
    · exact ⟨_, exec_typeCommand_intercept enc hop (h enc f rfl)⟩
    · exact ⟨_, exec_typeCommand_deliver hop enc f⟩
  all_goals exact ⟨_, rfl⟩

/-- Under the invariant what runs completes, or the command port does not accept the word. -/
theorem State.run_completes {s : State} (h : s.inv = true) :
    (∃ t, s.run = .next t) ∨ ∃ e, s.run = .refused (.notAccepted e) := by
  obtain ⟨w, u, i, hf, hd, he⟩ | ⟨w, u, r, -, -, he⟩ | ⟨-, he⟩ := s.run_cases
  · obtain ⟨hcode, -⟩ := encodeOfDecode w i hd
    refine .inl ?_
    rw [he]
    refine exec_completes i u fun enc f hi => ?_
    subst hi
    obtain ⟨hl, hst, hf'⟩ | ⟨-, -, hf'⟩ | ⟨-, -, hf'⟩ | ⟨c, r, -, -, hf'⟩ := s.fetch_cases
    · cases hf.symm.trans hf'
      have hframe := State.working_of_inv h hl
      rw [hst] at hframe
      simp only [rxFrameOk, Bool.and_eq_true, decide_eq_true_eq] at hframe
      have hword : headerWord 1 enc f = (s.frame s.rxFrame).headerWord := Fetched.header.inj hcode
      have hlen := (s.frame s.rxFrame).length_headerFields
      obtain ⟨-, -, hfields⟩ := fields_headerWord 1 enc f
      rw [← hword, hfields] at hlen
      omega
    · cases hf.symm.trans hf'
    · cases hf.symm.trans hf'
    · cases hf.symm.trans hf'
      cases hcode
  · exact .inr ⟨r, he⟩
  · exact .inl ⟨_, he⟩

/-- Settles O10. -/
theorem stepNeverFaults : Obligations.StepNeverFaults := by
  intro s h
  have hs : s.sampleRst.2.inv = true := State.inv_congr (by simp) (by simp) (by simp) (by simp) (by simp) h
  obtain ⟨-, he⟩ | ⟨-, he⟩ | ⟨k, -, he⟩ := step_cases s
  · rw [he]
    exact State.run_completes hs
  · exact .inl ⟨_, he⟩
  · rw [he]
    obtain ⟨t, hrun⟩ | ⟨e, hrun⟩ := State.run_completes hs <;> rw [hrun]
    · exact .inl ⟨_, rfl⟩
    · exact .inr ⟨e, rfl⟩

end Sys2Proof.Machine
end

section
/-! What only the receiver writes, and the identifiers of the frames handed over (R24 to R27, R221). -/

namespace Sys2Proof.Machine

/-! ### Metadata -/

/-- Metadata are kept but where the receiver's state says which field is received (R24 to R27). -/
def State.metadataKept (s t : State) : Prop :=
  s.txf.sameMeta t.txf ∧
    ∀ g,
      ((t.frame g).node = (s.frame g).node ∨ (s.listening = true ∧ g = s.rxFrame ∧ s.rxState = .rxNode)) ∧
      ((t.frame g).moduleId = (s.frame g).moduleId ∨ (s.listening = true ∧ g = s.rxFrame ∧ s.rxState = .rxModule)) ∧
      ((t.frame g).sig = (s.frame g).sig ∨ (s.listening = true ∧ g = s.rxFrame ∧ s.rxState = .rxSignal))

theorem State.metadataKept_of_keepsFrames {s t : State} (h : s.keepsFrames t) : s.metadataKept t :=
  ⟨h.txfMeta, fun g => by
    obtain ⟨hnode, hmodule, hsig⟩ := h.sameMeta g
    exact ⟨.inl hnode, .inl hmodule, .inl hsig⟩⟩

/-- The rule speaks of the frames and three registers only. -/
theorem State.metadataKept_congr {s u t : State} (hframe : ∀ g, u.frame g = s.frame g) (htxf : u.txf = s.txf)
    (hl : u.listening = s.listening) (hf : u.rxFrame = s.rxFrame) (hst : u.rxState = s.rxState) (h : u.metadataKept t) :
    s.metadataKept t := by
  unfold State.metadataKept at *
  simpa only [hframe, htxf, hl, hf, hst] using h

/-- The working frame after bytes were taken and it was written. -/
theorem State.frame_store (s : State) (r : List (BitVec 8)) (x : Frame) (st : RxState) (g : FrameSel) :
    (((s.leave r).setFrame s.rxFrame x).goTo st).frame g = if g = s.rxFrame then x else s.frame g := by
  rw [State.goTo_frame, State.frame_setFrame_eq, State.leave_frame]

section
variable {s : State}

theorem State.keepsFrames_of_same {t : State} (hframe : ∀ g, t.frame g = s.frame g) (htxf : t.txf = s.txf) :
    s.keepsFrames t :=
  State.keepsFrames_of_frames hframe (htxf ▸ Frame.sameMeta_refl _) (htxf ▸ id)

theorem State.keepsFrames_rxFail (s : State) (c : Cause) (v : Nat) : s.keepsFrames (s.rxFail c v) :=
  State.keepsFrames_clear (s.rxFail_frame_eq c v) (s.rxFail_txf c v)

theorem State.keepsFrames_malformed (r : List (BitVec 8)) : s.keepsFrames ((s.leave r).rxFail .malformedField) :=
  State.keepsFrames_trans (State.keepsFrames_of_same (s.leave_frame r) rfl) (State.keepsFrames_rxFail _ _ _)

theorem State.keepsFrames_appendByte (v : BitVec 8) (r : List (BitVec 8)) : s.keepsFrames (s.appendByte v r) :=
  State.keepsFrames_of_write (fun g => s.frame_store r _ (s.appendByte v r).rxState g) (Frame.sameMeta_put _ v)
    (fun h => Frame.ok_put h v) (by simp [State.appendByte])

theorem State.keepsFrames_goTo (st : RxState) : s.keepsFrames (s.goTo st) :=
  State.keepsFrames_of_same (s.goTo_frame st) rfl

/-! ### The states of the receiver -/

theorem rxNode_metadataKept (hl : s.listening = true) (hst : s.rxState = .rxNode) : s.metadataKept (rxNode s) := by
  obtain ⟨-, hrun⟩ | ⟨c1, c0, p, r, -, ⟨v, -, hrun⟩ | ⟨-, hrun⟩⟩ := rxNode_cases s <;> rw [hrun]
  · exact State.metadataKept_of_keepsFrames s.keepsFrames_refl
  · refine ⟨by simpa using Frame.sameMeta_refl _, fun g => ?_⟩
    rw [State.frame_store]
    split
    · next h => exact ⟨.inr ⟨hl, h, hst⟩, .inl (h ▸ rfl), .inl (h ▸ rfl)⟩
    · exact ⟨.inl rfl, .inl rfl, .inl rfl⟩
  · exact State.metadataKept_of_keepsFrames (State.keepsFrames_malformed r)

theorem rxModule_metadataKept (hl : s.listening = true) (hst : s.rxState = .rxModule) :
    s.metadataKept (rxModule s) := by
  obtain ⟨-, hrun⟩ | ⟨c3, c2, c1, c0, p, r, -, ⟨v, -, hrun⟩ | ⟨-, hrun⟩⟩ := rxModule_cases s <;> rw [hrun]
  · exact State.metadataKept_of_keepsFrames s.keepsFrames_refl
  · refine ⟨by simpa using Frame.sameMeta_refl _, fun g => ?_⟩
    rw [State.frame_store]
    split
    · next h => exact ⟨.inl (h ▸ rfl), .inr ⟨hl, h, hst⟩, .inl (h ▸ rfl)⟩
    · exact ⟨.inl rfl, .inl rfl, .inl rfl⟩
  · exact State.metadataKept_of_keepsFrames (State.keepsFrames_malformed r)

theorem rxSignal_metadataKept (hl : s.listening = true) (hst : s.rxState = .rxSignal) :
    s.metadataKept (rxSignal s) := by
  obtain ⟨-, hrun⟩ | ⟨c1, c0, p, r, -, ⟨v, -, hrun⟩ | ⟨-, hrun⟩⟩ := rxSignal_cases s <;> rw [hrun]
  · exact State.metadataKept_of_keepsFrames s.keepsFrames_refl
  · refine ⟨by simpa using Frame.sameMeta_refl _, fun g => ?_⟩
    rw [State.frame_store]
    split
    · next h => exact ⟨.inl (h ▸ rfl), .inl (h ▸ rfl), .inr ⟨hl, h, hst⟩⟩
    · exact ⟨.inl rfl, .inl rfl, .inl rfl⟩
  · exact State.metadataKept_of_keepsFrames (State.keepsFrames_malformed r)

theorem rxIdle_keepsFrames (s : State) : s.keepsFrames (rxIdle s) := by
  obtain ⟨-, hrun⟩ | ⟨-, hrun⟩ := rxIdle_cases s <;> rw [hrun]
  · exact s.keepsFrames_refl
  · exact State.keepsFrames_of_same (by simp) (by simp)

theorem rxHeader_keepsFrames (s : State) : s.keepsFrames (rxHeader s) := by
  obtain ⟨-, hrun⟩ | ⟨r, -, hrun⟩ | ⟨v, r, -, ⟨-, hrun⟩ | ⟨-, hrun⟩⟩ := rxHeader_cases s <;> rw [hrun]
  · exact s.keepsFrames_refl
  · exact State.keepsFrames_malformed r
  · exact State.keepsFrames_trans (State.keepsFrames_appendByte v r) (State.keepsFrames_goTo _)
  · exact State.keepsFrames_appendByte v r

theorem rxPayload_keepsFrames (s : State) : s.keepsFrames (rxPayload s) := by
  have harrive : s.keepsFrames s.arrive := State.keepsFrames_of_same s.arrive_frame s.arrive_txf
  obtain ⟨-, hrun⟩ | ⟨-, hrun⟩ | ⟨-, -, ⟨-, hrun⟩ | ⟨-, hrun⟩⟩ := rxPayload_cases s <;> rw [hrun]
  · exact State.keepsFrames_rxFail _ _ _
  · exact State.keepsFrames_rxFail _ _ _
  · refine State.keepsFrames_trans harrive ?_
    obtain ⟨-, hrun⟩ | ⟨r, -, hrun⟩ | ⟨v, r, -, hrun⟩ := rxPayloadByte_cases s.arrive <;> rw [hrun]
    · exact State.keepsFrames_refl _
    · exact State.keepsFrames_malformed r
    · exact State.keepsFrames_appendByte v r
  · refine State.keepsFrames_trans harrive ?_
    obtain ⟨-, hrun⟩ | ⟨a, b, r, -, hrun⟩ := rxTerminator_cases s.arrive <;> rw [hrun]
    · exact State.keepsFrames_refl _
    · exact State.keepsFrames_of_same (by simp) rfl

end

theorem rxStep_metadataKept {s : State} (hl : s.listening = true) : s.metadataKept (rxStep s) := by
  have harrive : ∀ {t}, s.arrive.metadataKept t → s.metadataKept t :=
    State.metadataKept_congr s.arrive_frame s.arrive_txf s.arrive_listening s.arrive_rxFrame s.arrive_rxState
  have hl' : s.arrive.listening = true := by simpa using hl
  have hst := s.arrive_rxState
  unfold rxStep
  split
  · exact harrive (State.metadataKept_of_keepsFrames (rxIdle_keepsFrames _))
  · next e => exact harrive (rxNode_metadataKept hl' (hst.trans e))
  · next e => exact harrive (rxModule_metadataKept hl' (hst.trans e))
  · next e => exact harrive (rxSignal_metadataKept hl' (hst.trans e))
  · exact harrive (State.metadataKept_of_keepsFrames (rxHeader_keepsFrames _))
  · exact State.metadataKept_of_keepsFrames (rxPayload_keepsFrames s)
  · exact State.metadataKept_of_keepsFrames s.keepsFrames_refl

theorem rxIteration_metadataKept {s : State} (hl : s.listening = true) : s.metadataKept (rxIteration s) := by
  refine State.metadataKept_congr s.accountTime_frame s.accountTime_txf s.accountTime_listening s.accountTime_rxFrame
    s.accountTime_rxState ?_
  obtain ⟨-, hrun⟩ | ⟨-, hrun⟩ := rxIteration_cases s <;> rw [hrun]
  · exact State.metadataKept_of_keepsFrames (State.keepsFrames_rxFail _ _ _)
  · exact rxStep_metadataKept (by simpa using hl)

/-- Settles O15: an instruction keeps all metadata, an iteration all but the field it receives. -/
theorem metadataSetOnlyByReceiver : Obligations.MetadataSetOnlyByReceiver := by
  intro s t hrst hstep
  refine State.metadataKept_congr s.sampleRst_frame s.sampleRst_txf s.sampleRst_listening s.sampleRst_rxFrame
    s.sampleRst_rxState ?_
  obtain ⟨i, c, r, -, -, he⟩ | ⟨i, -, -, -, he⟩ | ⟨hl, -, rfl⟩ | ⟨-, rfl⟩ :=
    State.run_ends ((step_released hrst).symm.trans hstep)
  · have hkept := State.metadataKept_of_keepsFrames (exec_ends he).1
    exact State.metadataKept_congr (fun g => by cases g <;> rfl) rfl rfl rfl rfl hkept
  · exact State.metadataKept_of_keepsFrames (exec_ends he).1
  · exact rxIteration_metadataKept hl
  · exact State.metadataKept_of_keepsFrames (State.keepsFrames_refl _)

/-! ### The sequence property -/

/-- From `s` to `t` frames were handed over that carry consecutive identifiers from `SEQ` on, and `SEQ` advanced by their
number (R221). -/
def State.sendsInSequence (s t : State) : Prop :=
  ∃ l, t.t.sent = s.t.sent ++ l ∧ t.seq = s.seq + BitVec.ofNat 8 l.length ∧
    ∀ j x, l[j]? = some x → x.bytes[2]? = some (s.seq + BitVec.ofNat 8 j)

section
variable {s t : State}

theorem State.sendsInSequence_nil (hsent : t.t.sent = s.t.sent) (hseq : t.seq = s.seq) : s.sendsInSequence t :=
  ⟨[], by rw [hsent, List.append_nil], by simp [hseq], fun j x hx => by simp at hx⟩

theorem State.sendsInSequence_one {b : List (BitVec 8)} {n : Nat} (hsent : t.t.sent = s.t.sent ++ [⟨b, n⟩])
    (hseq : t.seq = s.seq + 1) (hid : b[2]? = some s.seq) : s.sendsInSequence t := by
  refine ⟨_, hsent, hseq, fun j x hx => ?_⟩
  obtain ⟨rfl, rfl⟩ : j = 0 ∧ _ = x := by simpa [List.getElem?_singleton] using hx
  simpa using hid

/-- A stamped frame with a header carries `SEQ` (R211). -/
theorem Frame.getElem?_content_stamped {x : Frame} (hok : x.ok = true) (hheader : 3 ≤ x.wr.val) :
    (s.stamped x).content[2]? = some s.seq := by
  rw [Frame.content_stamped s hok, List.getElem?_set_self]
  rw [Frame.length_content]
  omega

theorem sendsInSequence_of_sendsOne {i : Instr} {op : BitVec 8} {b : List (BitVec 8)} (hexec : exec i s = .next t)
    (hi : i = .sndCmd op b ∨ i = .sndCmdAck op b ∨ i = .sndAck op b ∨ i = .sndNotice b) : s.sendsInSequence t := by
  obtain ⟨x, v, c, hrun, hok, -, hheader⟩ := exec_sendsOne op b s hi
  obtain rfl := Host.Outcome.next.inj (hrun.symm.trans hexec)
  obtain ⟨hsent, hseq, -⟩ := s.sends_sendBuilt x v c
  exact State.sendsInSequence_one hsent hseq (Frame.getElem?_content_stamped hok hheader)

theorem sendsInSequence_intercept (ack : Bool) (p : List (BitVec 8)) : s.sendsInSequence (s.intercept ack p) := by
  obtain ⟨w, a, l, hw, hends⟩ := s.intercept_spec ack p
  obtain ⟨-, -, -, -, -, -, -, -, -, -, -, -, hsent, hseq⟩ := hw.fields
  have hout : s.sendsInSequence w := by
    obtain ⟨-, rfl, -⟩ | ⟨r, -, -, rfl, -⟩ | ⟨r, n, -, -, rfl, -⟩ := hends
    · exact ⟨[], hsent, hseq, fun j x hx => by simp at hx⟩
    · exact ⟨[], hsent, hseq, fun j x hx => by simp at hx⟩
    · exact State.sendsInSequence_one hsent hseq rfl
  have hfail : ∀ c v, s.sendsInSequence (w.rxFail c v) := fun c v => by
    simpa [State.sendsInSequence] using hout
  have hloop : s.sendsInSequence w.rxLoop := by simpa [State.sendsInSequence] using hout
  obtain ⟨-, -, -, hrun⟩ | ⟨-, -, -, -, -, hrun⟩ | ⟨r, n, -, -, -, ⟨-, hrun⟩ | ⟨-, hrun⟩⟩ := hends <;> rw [hrun]
  · exact hfail _ _
  · exact hloop
  · exact hloop
  · exact hfail _ _

end

/-- Settles O16. -/
theorem sequenceProperty : Obligations.SequenceProperty := by
  intro i s t hinv hne hexec
  obtain ⟨hok, -⟩ := s.inv_iff.mp hinv
  by_cases hop : isFrameOp i = true
  · obtain ⟨u, hu, -, -, -, hreg, henv⟩ := frameOpsTouchOnlyTheirFrame i s hop
    obtain rfl := Host.Outcome.next.inj (hu.symm.trans hexec)
    obtain ⟨-, -, -, ht, -⟩ := henv
    exact State.sendsInSequence_nil (by rw [ht]) hreg.1
  cases i
  case sndSeq => exact absurd rfl hne
  case typeDataRaw | typeDataEnc | typeAck | typeNotice =>
    obtain rfl := Host.Outcome.next.inj hexec
    exact State.sendsInSequence_nil rfl rfl
  case typeReserved =>
    obtain rfl := Host.Outcome.next.inj hexec
    exact State.sendsInSequence_nil (by simp) (by simp)
  case typeCommand enc h =>
    by_cases hopc : (s.frame s.rxFrame).byte 3 = s.cfg.opcExec
    · by_cases hlen : h.length.toNat ≤ 61
      · obtain rfl := Host.Outcome.next.inj ((exec_typeCommand_intercept enc hopc hlen).symm.trans hexec)
        exact sendsInSequence_intercept _ _
      · rw [(intercept h enc s hopc).1 (by omega)] at hexec
        cases hexec
    · obtain rfl := Host.Outcome.next.inj ((exec_typeCommand_deliver hopc enc h).symm.trans hexec)
      exact State.sendsInSequence_nil rfl rfl
  case sndCmd op b => exact sendsInSequence_of_sendsOne hexec (.inl rfl)
  case sndCmdAck op b => exact sendsInSequence_of_sendsOne hexec (.inr (.inl rfl))
  case sndAck op b => exact sendsInSequence_of_sendsOne hexec (.inr (.inr (.inl rfl)))
  case sndNotice b => exact sendsInSequence_of_sendsOne (op := 0) hexec (.inr (.inr (.inr rfl)))
  case sndXmit f =>
    by_cases hheader : 3 ≤ (s.frame f).wr.val
    · obtain ⟨u, hu, ⟨hsent, hseq, -⟩, -⟩ := exec_sndXmit_sends hheader
      obtain rfl := Host.Outcome.next.inj (hu.symm.trans hexec)
      exact State.sendsInSequence_one hsent hseq (Frame.getElem?_content_stamped (hok f) hheader)
    · obtain rfl := Host.Outcome.next.inj ((exec_sndXmit_missing (by omega)).symm.trans hexec)
      exact State.sendsInSequence_nil rfl rfl
  case sndData fragment encode b =>
    obtain ⟨u, l, hu, -, -, -, -, hsent, hseq, hbytes, -⟩ := sndDataFrames fragment encode b s
    obtain rfl := Host.Outcome.next.inj (hu.symm.trans hexec)
    exact ⟨l, hsent, hseq, fun j x hx => by rw [hbytes j x hx]; rfl⟩
  case rcvListen f b =>
    obtain ⟨u, hu, -, ⟨-, hseq, -, -, -, -, ht, -⟩, -⟩ := exec_rcvListen f b s
    obtain rfl := Host.Outcome.next.inj (hu.symm.trans hexec)
    exact State.sendsInSequence_nil (by rw [ht]) hseq
  all_goals exact absurd rfl hop

end Sys2Proof.Machine
end

section
/-! A reset inside an operation (R340, R346, U18): the calls that the step makes are those of its instruction or its
iteration, and the first of them leave T as far as they reach. -/

namespace Sys2Proof.Machine

/-! ### The first calls of a list -/

/-- A call that hands nothing over. -/
def Call.receives : Call → Bool
  | .now => true
  | .avail => true
  | .byteTime => true
  | .read => true
  | .exec _ => false
  | .send _ => false

theorem State.perform_receives (s : State) {c : Call} (h : c.receives = true) :
    (s.perform c).t.executed = s.t.executed ∧ (s.perform c).t.sent = s.t.sent := by
  cases c with
  | now => exact ⟨congrArg Transport.executed s.now_t, congrArg Transport.sent s.now_t⟩
  | avail => exact ⟨s.arrive_t_executed, s.arrive_t_sent⟩
  | byteTime => exact ⟨s.byteTime_t_executed, s.byteTime_t_sent⟩
  | read => exact ⟨rfl, rfl⟩
  | exec p => cases h
  | send b => cases h

/-- Calls that hand nothing over leave what was handed over. -/
theorem State.performAll_receives (l : List Call) : ∀ s : State, (∀ c ∈ l, c.receives = true) →
    (s.performAll l).t.executed = s.t.executed ∧ (s.performAll l).t.sent = s.t.sent := by
  induction l with
  | nil => exact fun s _ => ⟨rfl, rfl⟩
  | cons c l ih =>
    intro s h
    obtain ⟨hc, hl⟩ := List.forall_mem_cons.mp h
    obtain ⟨hexec, hsent⟩ := s.perform_receives hc
    obtain ⟨hexec', hsent'⟩ := ih (s.perform c) hl
    exact ⟨hexec'.trans hexec, hsent'.trans hsent⟩

/-- The first `k` of the sends that hand over `ls`. -/
theorem State.performAll_take_send {s : State} {ls : List Sent}
    (h : (s.performAll (ls.map fun x => .send x.bytes)).t.sent = s.t.sent ++ ls) (k : Nat) :
    (s.performAll ((ls.map fun x => Call.send x.bytes).take k)).t.sent = s.t.sent ++ ls.take k ∧
      (s.performAll ((ls.map fun x => Call.send x.bytes).take k)).t.executed = s.t.executed := by
  obtain ⟨l, hl, htake⟩ := State.performAll_send (ls.map Sent.bytes) s
  simp only [List.map_map] at htake
  have hall := (htake ls.length).1
  have hlen : l.length = ls.length := by simpa using congrArg List.length hl
  rw [List.take_of_length_le (by simp), List.take_of_length_le (by omega)] at hall
  obtain rfl : ls = l := List.append_cancel_left (h.symm.trans hall)
  exact htake k

section
variable {s t : State} {le : List Executed} {ls : List Sent}

/-- The first `k` calls of an operation of the command port: of its frames the first `k`. -/
theorem State.makesCalls_take {n : List Call} (h : s.makesCalls t n [] ls) (hn : n = [] ∨ (n = [.now] ∧ ls = []))
    (k : Nat) :
    (s.performAll ((callList n [] ls).take k)).t.sent = s.t.sent ++ ls.take k ∧
      (s.performAll ((callList n [] ls).take k)).t.executed = s.t.executed := by
  obtain rfl | ⟨rfl, rfl⟩ := hn
  · have hsent := (congrArg Transport.sent h.inputs.1).symm.trans h.sent
    exact State.performAll_take_send hsent k
  · obtain ⟨hexec, hsent⟩ := State.performAll_receives ([Call.now].take k) s fun c hc => by
      rw [List.mem_singleton.mp (List.mem_of_mem_take hc)]
      rfl
    exact ⟨by simpa [callList] using hsent, by simpa [callList] using hexec⟩

/-- The first `k` calls of the dispatch of a completed frame: the module command first, then the Ack. -/
theorem State.makesCalls_take_intercept (h : s.makesCalls t [] le ls)
    (hone : (le = [] ∧ ls = []) ∨ ∃ x, le = [x]) (k : Nat) :
    (s.performAll ((callList [] le ls).take k)).t.executed = s.t.executed ++ le.take k ∧
      (s.performAll ((callList [] le ls).take k)).t.sent = s.t.sent ++ ls.take (k - 1) := by
  obtain ⟨rfl, rfl⟩ | ⟨x, rfl⟩ := hone
  · simp [callList]
  · cases k with
    | zero => simp
    | succ k =>
      obtain ⟨answers, draws, hu⟩ := s.execModule_spec x.command
      have hsent : (s.execModule x.command).2.t.sent = s.t.sent := by rw [hu]
      have hends := (congrArg Transport.sent h.inputs.1).symm.trans h.sent
      have hruns := (congrArg Transport.executed h.inputs.1).symm.trans h.executed
      rw [← hsent] at hends
      have htake := State.performAll_take_send (s := (s.execModule x.command).2) hends
      have hall := (htake ls.length).2
      rw [List.take_of_length_le (by simp)] at hall
      obtain ⟨hk, hexec⟩ := htake k
      exact ⟨(hexec.trans (hall.symm.trans hruns)).trans (by simp), hk.trans (by rw [hsent]; rfl)⟩

/-- The calls of an instruction, as the model lists them. -/
theorem State.instructionCalls_eq {n : List Call} (h : s.makesCalls t n le ls)
    (hn : n = if t.listening && !s.listening then [.now] else []) : s.instructionCalls t = callList n le ls := by
  rw [State.instructionCalls, h.executed, h.sent, List.drop_left, List.drop_left, ← hn]
  rfl

/-- The calls depend on T, the ticks and the count of draws alone. -/
theorem State.makesCalls_congr {u : State} {n : List Call} (hu : s.sameInputs u) (h : u.makesCalls t n le ls) :
    s.makesCalls t n le ls := by
  obtain ⟨h1, h2, h3⟩ := State.performAll_sameInputs (callList n le ls) hu
  obtain ⟨h1', h2', h3'⟩ := h.inputs
  exact ⟨h.executed.trans (by rw [hu.1]), h.sent.trans (by rw [hu.1]), h1'.trans h1, h2'.trans h2, h3'.trans h3⟩

end

/-! ### The calls of an iteration -/

/-- From `s` to `t` bytes were read from the front of what was pending, and no other call was made. -/
def State.readsTo (s t : State) : Prop :=
  ∃ pre, s.t.inbound = pre ++ t.t.inbound ∧ (s.leave t.t.inbound).sameInputs t

theorem State.readsTo_refl (s : State) : s.readsTo s := ⟨[], rfl, rfl, rfl, rfl⟩

/-- Bytes left, whatever is done with those taken. -/
theorem State.readsTo_of_leave {s t : State} {pre r : List (BitVec 8)} (h : s.t.inbound = pre ++ r)
    (ht : (s.leave r).sameInputs t) : s.readsTo t := by
  have hr : t.t.inbound = r := congrArg Transport.inbound ht.1
  exact ⟨pre, hr ▸ h, hr ▸ ht⟩

/-- The reads that lead from `s` to `t`. -/
theorem State.performAll_readsTo {s t : State} (h : s.readsTo t) :
    (s.performAll (List.replicate (s.t.inbound.length - t.t.inbound.length) .read)).sameInputs t := by
  obtain ⟨pre, hpre, hsame⟩ := h
  rw [State.performAll_read, hpre, List.length_append, Nat.add_sub_cancel, List.drop_left]
  exact hsame

section
variable {s : State} {pre r : List (BitVec 8)}

theorem State.readsTo_store (h : s.t.inbound = pre ++ r) (x : Frame) (st : RxState) :
    s.readsTo (((s.leave r).setFrame s.rxFrame x).goTo st) := State.readsTo_of_leave h (by simp [State.sameInputs])

theorem State.readsTo_malformed (h : s.t.inbound = pre ++ r) : s.readsTo ((s.leave r).rxFail .malformedField) :=
  State.readsTo_of_leave h (by simp [State.sameInputs])

theorem State.readsTo_appendByte (h : s.t.inbound = pre ++ r) (v : BitVec 8) : s.readsTo (s.appendByte v r) :=
  State.readsTo_store h _ (s.appendByte v r).rxState

end

/-- The digits and the separator of a frame byte are the front of what is pending (R254). -/
theorem fetchFrameByte_suffix {p : Config.WireProfile} {k : Nat} {inb r : List (BitVec 8)} {v : Option (BitVec 8)}
    (h : fetchFrameByte p k inb = some (v, r)) : ∃ pre, inb = pre ++ r := by
  unfold fetchFrameByte at h
  split at h
  · split at h
    · next c r' =>
      cases h
      exact ⟨[c], rfl⟩
    · cases h
  · split at h
    · split at h
      · next c1 c0 r' =>
        cases h
        exact ⟨[c1, c0], rfl⟩
      · cases h
    · split at h
      · next c2 c1 c0 r' =>
        cases h
        exact ⟨[c2, c1, c0], rfl⟩
      · cases h

section
variable (s : State)

theorem rxNode_readsTo : s.readsTo (rxNode s) := by
  obtain ⟨-, hrun⟩ | ⟨c1, c0, p, r, hin, ⟨v, -, hrun⟩ | ⟨-, hrun⟩⟩ := rxNode_cases s <;> rw [hrun]
  · exact s.readsTo_refl
  · exact State.readsTo_store (pre := [c1, c0, p]) hin _ _
  · exact State.readsTo_malformed (pre := [c1, c0, p]) hin

theorem rxModule_readsTo : s.readsTo (rxModule s) := by
  obtain ⟨-, hrun⟩ | ⟨c3, c2, c1, c0, p, r, hin, ⟨v, -, hrun⟩ | ⟨-, hrun⟩⟩ := rxModule_cases s <;> rw [hrun]
  · exact s.readsTo_refl
  · exact State.readsTo_store (pre := [c3, c2, c1, c0, p]) hin _ _
  · exact State.readsTo_malformed (pre := [c3, c2, c1, c0, p]) hin

theorem rxSignal_readsTo : s.readsTo (rxSignal s) := by
  obtain ⟨-, hrun⟩ | ⟨c1, c0, p, r, hin, ⟨v, -, hrun⟩ | ⟨-, hrun⟩⟩ := rxSignal_cases s <;> rw [hrun]
  · exact s.readsTo_refl
  · exact State.readsTo_store (pre := [c1, c0, p]) hin _ _
  · exact State.readsTo_malformed (pre := [c1, c0, p]) hin

theorem rxHeader_readsTo : s.readsTo (rxHeader s) := by
  obtain ⟨-, hrun⟩ | ⟨r, hbyte, hrun⟩ | ⟨v, r, hbyte, ⟨-, hrun⟩ | ⟨-, hrun⟩⟩ := rxHeader_cases s <;> rw [hrun]
  · exact s.readsTo_refl
  · obtain ⟨pre, hin⟩ := fetchFrameByte_suffix hbyte
    exact State.readsTo_malformed hin
  · obtain ⟨pre, hin⟩ := fetchFrameByte_suffix hbyte
    exact State.readsTo_store hin _ _
  · obtain ⟨pre, hin⟩ := fetchFrameByte_suffix hbyte
    exact State.readsTo_appendByte hin v

theorem rxPayloadByte_readsTo : s.readsTo (rxPayloadByte s) := by
  obtain ⟨-, hrun⟩ | ⟨r, hbyte, hrun⟩ | ⟨v, r, hbyte, hrun⟩ := rxPayloadByte_cases s <;> rw [hrun]
  · exact s.readsTo_refl
  · obtain ⟨pre, hin⟩ := fetchFrameByte_suffix hbyte
    exact State.readsTo_malformed hin
  · obtain ⟨pre, hin⟩ := fetchFrameByte_suffix hbyte
    exact State.readsTo_appendByte hin v

theorem rxTerminator_readsTo : s.readsTo (rxTerminator s) := by
  obtain ⟨-, hrun⟩ | ⟨a, b, r, hin, hrun⟩ := rxTerminator_cases s <;> rw [hrun]
  · exact s.readsTo_refl
  · exact State.readsTo_of_leave (pre := [a, b]) hin ⟨rfl, rfl, rfl⟩

/-- `Idle` reads nothing; it asks for the byte time where it extends the budget (R247, R248). -/
theorem rxIdle_sameInputs (hst : s.rxState = .idle) :
    (s.performAll ((if s.asksByteTime then [.byteTime] else []) ++
      List.replicate (s.t.inbound.length - (rxIdle s).t.inbound.length) .read)).sameInputs (rxIdle s) := by
  obtain ⟨hin, hrun⟩ | ⟨hin, hrun⟩ := rxIdle_cases s <;> rw [hrun]
  · have hask : s.asksByteTime = false := by simp [State.asksByteTime, hin]
    rw [hask, if_neg Bool.false_ne_true, Nat.sub_self]
    exact ⟨rfl, rfl, rfl⟩
  · rw [State.goTo_t, State.extendBudget_t_inbound, Nat.sub_self, List.replicate_zero, List.append_nil]
    have hpending : s.t.inbound.isEmpty = false := by simpa using hin
    have hask : s.asksByteTime = (!s.rxUnbounded && !s.rxExtended) := by simp [State.asksByteTime, hst, hpending]
    rw [hask, State.extendBudget]
    cases s.rxUnbounded <;> cases s.rxExtended <;> exact ⟨rfl, rfl, rfl⟩

end

/-- After the query the calls of a state other than `Idle` are its reads. -/
theorem State.performAll_reads {s t : State} (hst : s.rxState ≠ .idle) (h : s.readsTo t) :
    (s.performAll ((if s.asksByteTime then [.byteTime] else []) ++
      List.replicate (s.t.inbound.length - t.t.inbound.length) .read)).sameInputs t := by
  have hask : s.asksByteTime = false := by simp [State.asksByteTime, hst]
  rw [hask, if_neg Bool.false_ne_true]
  exact State.performAll_readsTo h

/-- Where the step asks T, its calls are the query and what follows it. -/
theorem rxStep_asks {s t : State} (h : s.asksTransport = true) (hrun : rxStep s = t) :
    (s.arrive.performAll ((if s.arrive.asksByteTime then [.byteTime] else []) ++
      List.replicate (s.arrive.t.inbound.length - t.t.inbound.length) .read)).sameInputs t := by
  have hst := s.arrive_rxState
  have hreads : s.rxState ≠ .idle → s.arrive.readsTo t → _ := fun h0 h1 =>
    State.performAll_reads (s := s.arrive) (t := t) (hst ▸ h0) h1
  unfold State.asksTransport at h
  unfold rxStep at hrun
  split at hrun <;> subst hrun
  · next e => exact rxIdle_sameInputs _ (hst.trans e)
  · next e => exact hreads (by simp [e]) (rxNode_readsTo _)
  · next e => exact hreads (by simp [e]) (rxModule_readsTo _)
  · next e => exact hreads (by simp [e]) (rxSignal_readsTo _)
  · next e => exact hreads (by simp [e]) (rxHeader_readsTo _)
  · next e =>
    rw [e] at h
    obtain ⟨hzero, -⟩ | ⟨hlarge, -⟩ | ⟨-, -, ⟨-, hrun⟩ | ⟨-, hrun⟩⟩ := rxPayload_cases s
    · simp [hzero] at h
    · have hmax : (s.frame s.rxFrame).lengthField ≤ 61 := by
        simp only [Bool.and_eq_true, decide_eq_true_eq] at h
        exact h.2
      omega
    · exact hreads (by simp [e]) (hrun ▸ rxPayloadByte_readsTo s.arrive)
    · exact hreads (by simp [e]) (hrun ▸ rxTerminator_readsTo s.arrive)
  · next e =>
    rw [e] at h
    cases h

/-- Where it does not, it calls nothing. -/
theorem rxStep_asksNot {s : State} (hst : s.rxState ≠ .done) (h : s.asksTransport = false) :
    s.sameInputs (rxStep s) := by
  unfold State.asksTransport at h
  unfold rxStep
  split <;> rename_i e <;> rw [e] at h
  iterate 5 cases h
  · obtain ⟨-, hrun⟩ | ⟨-, hrun⟩ | ⟨hone, hmax, -⟩ := rxPayload_cases s
    · rw [hrun]
      simp [State.sameInputs]
    · rw [hrun]
      simp [State.sameInputs]
    · have hyes : (decide (1 ≤ (s.frame s.rxFrame).lengthField) &&
          decide ((s.frame s.rxFrame).lengthField ≤ 61)) = true := by simp [hone, hmax]
      cases hyes.symm.trans h
  · exact absurd e hst

/-- The calls of an iteration lead to what it leaves of T and of the ticks. -/
theorem State.iterationCalls_sameInputs {s : State} (hst : s.rxState ≠ .done) :
    (s.performAll (s.iterationCalls (rxIteration s))).sameInputs (rxIteration s) := by
  have hacc : (s.perform .now).sameInputs s.accountTime := ⟨rfl, rfl, rfl⟩
  have hcongr : ∀ l t, (s.accountTime.performAll l).sameInputs t → ((s.perform .now).performAll l).sameInputs t :=
    fun l t ht => by
      obtain ⟨h1, h2, h3⟩ := State.performAll_sameInputs l hacc
      exact ⟨ht.1.trans h1, ht.2.1.trans h2, ht.2.2.trans h3⟩
  rw [State.iterationCalls, State.performAll_cons]
  refine hcongr _ _ ?_
  obtain ⟨htime, hrun⟩ | ⟨htime, hrun⟩ := rxIteration_cases s <;> rw [hrun, htime]
  · simp [State.sameInputs]
  · cases hask : s.accountTime.asksTransport with
    | false => exact rxStep_asksNot (by simpa using hst) hask
    | true => exact rxStep_asks hask rfl

/-- No call of an iteration hands anything over. -/
theorem State.iterationCalls_receives (s t : State) : ∀ c ∈ s.iterationCalls t, c.receives = true := by
  intro c hc
  rw [State.iterationCalls, List.mem_cons] at hc
  obtain rfl | hc := hc
  · rfl
  · split at hc
    · simp at hc
    · rw [List.mem_cons, List.mem_append, List.mem_replicate] at hc
      obtain rfl | hc | ⟨-, rfl⟩ := hc
      · rfl
      · split at hc
        · rw [List.mem_singleton.mp hc]
          rfl
        · simp at hc
      · rfl

/-! ### The step -/

/-- What is handed over by the first `k` calls of the step from `s` to `t`, and that all of them lead to what `t` has of T
and of the ticks. -/
structure State.cutAfter (s t : State) (k : Nat) (u : State) : Prop where
  command : s.listening = false → u.t.executed = s.t.executed ∧
    u.t.sent = s.t.sent ++ (t.t.sent.drop s.t.sent.length).take k
  dispatch : s.listening = true → s.rxState = .done →
    u.t.executed = s.t.executed ++ (t.t.executed.drop s.t.executed.length).take k ∧
      u.t.sent = s.t.sent ++ (t.t.sent.drop s.t.sent.length).take (k - 1)
  iteration : s.listening = true → s.rxState ≠ .done → u.t.executed = s.t.executed ∧ u.t.sent = s.t.sent
  all : (s.callsTo t).length ≤ k → u.sameInputs t

section
variable {s t : State}

/-- An operation of the command port. -/
theorem State.cutAfter_command {n : List Call} {ls : List Sent} (hl : s.listening = false)
    (h : s.makesCalls t n [] ls) (hn : (n = [] ∧ t.listening = false) ∨ (n = [.now] ∧ ls = [] ∧ t.listening = true))
    (k : Nat) : s.cutAfter t k (s.performAll ((s.callsTo t).take k)) := by
  have hcalls : s.callsTo t = callList n [] ls := by
    rw [State.callsTo, hl, Bool.false_and, if_neg Bool.false_ne_true]
    refine State.instructionCalls_eq h ?_
    obtain ⟨rfl, hl'⟩ | ⟨rfl, -, hl'⟩ := hn <;> rw [hl', hl] <;> rfl
  obtain ⟨hsent, hexec⟩ := State.makesCalls_take h (hn.imp And.left fun hn => ⟨hn.1, hn.2.1⟩) k
  rw [hcalls]
  refine ⟨fun _ => ⟨hexec, ?_⟩, fun h' => ?_, fun h' => ?_, fun hk => ?_⟩
  · rw [hsent, h.sent, List.drop_left]
  · cases hl.symm.trans h'
  · cases hl.symm.trans h'
  · rw [hcalls] at hk
    rw [List.take_of_length_le hk]
    exact h.inputs

/-- The dispatch of a completed frame. -/
theorem State.cutAfter_dispatch {le : List Executed} {ls : List Sent} (hl : s.listening = true) (hst : s.rxState = .done)
    (h : s.makesCalls t [] le ls) (hone : (le = [] ∧ ls = []) ∨ ∃ x, le = [x]) (k : Nat) :
    s.cutAfter t k (s.performAll ((s.callsTo t).take k)) := by
  have hcalls : s.callsTo t = callList [] le ls := by
    have hno : (s.listening && decide (s.rxState ≠ .done)) = false := by simp [hst]
    rw [State.callsTo, hno, if_neg Bool.false_ne_true]
    exact State.instructionCalls_eq h (by simp [hl])
  obtain ⟨hexec, hsent⟩ := State.makesCalls_take_intercept h hone k
  rw [hcalls]
  refine ⟨fun h' => ?_, fun _ _ => ⟨?_, ?_⟩, fun _ h' => absurd hst h', fun hk => ?_⟩
  · cases hl.symm.trans h'
  · rw [hexec, h.executed, List.drop_left]
  · rw [hsent, h.sent, List.drop_left]
  · rw [hcalls] at hk
    rw [List.take_of_length_le hk]
    exact h.inputs

/-- An iteration. -/
theorem State.cutAfter_iteration (hl : s.listening = true) (hst : s.rxState ≠ .done) (k : Nat) :
    s.cutAfter (rxIteration s) k (s.performAll ((s.callsTo (rxIteration s)).take k)) := by
  have hcalls : s.callsTo (rxIteration s) = s.iterationCalls (rxIteration s) := by
    have hyes : (s.listening && decide (s.rxState ≠ .done)) = true := by simp [hl, hst]
    rw [State.callsTo, hyes, if_pos rfl]
  rw [hcalls]
  refine ⟨fun h' => ?_, fun _ h' => absurd h' hst, fun _ _ => ?_, fun hk => ?_⟩
  · cases hl.symm.trans h'
  · exact State.performAll_receives _ s fun c hc => s.iterationCalls_receives _ c (List.mem_of_mem_take hc)
  · rw [hcalls] at hk
    rw [List.take_of_length_le hk]
    exact State.iterationCalls_sameInputs hst

/-- Whatever runs in the step. -/
theorem State.cutAfter_run (hrun : s.run = .next t) (k : Nat) :
    s.cutAfter t k (s.performAll ((s.callsTo t).take k)) := by
  obtain ⟨i, c, r, hi, hl, he⟩ | ⟨i, hi, hl, hst, he⟩ | ⟨hl, hst, rfl⟩ | ⟨hl, rfl⟩ := State.run_ends hrun
  · have hsame : s.sameInputs { s with host := r } := ⟨rfl, rfl, rfl⟩
    obtain ⟨-, hends⟩ := exec_ends he
    cases hends with
    | completes ls _ hcalls hrx =>
      exact State.cutAfter_command hl (State.makesCalls_congr hsame hcalls) (.inl ⟨rfl, hrx.2.1.trans hl⟩) k
    | listens _ hcalls hrx =>
      exact State.cutAfter_command hl (State.makesCalls_congr hsame hcalls) (.inr ⟨rfl, rfl, hrx.2.1⟩) k
    | dispatches le ls hw _ _ _ =>
      obtain ⟨w, hw⟩ := hw
      cases hi.symm.trans hw
  · obtain ⟨-, hends⟩ := exec_ends he
    cases hends with
    | completes ls hc _ _ =>
      obtain ⟨c, hc⟩ := hc
      cases hc.symm.trans hi
    | listens hc _ _ =>
      obtain ⟨c, hc⟩ := hc
      cases hc.symm.trans hi
    | dispatches le ls _ hcalls hone _ => exact State.cutAfter_dispatch hl hst hcalls hone k
  · exact State.cutAfter_iteration hl hst k
  · exact State.cutAfter_command hl (State.makesCalls_nil ⟨rfl, rfl, rfl⟩) (.inl ⟨rfl, hl⟩) k

end

/-- Settles O12: the reset leaves T and the ticks as the first `k` calls of the step do. -/
theorem resetDuringOperation : Obligations.ResetDuringOperation := by
  intro s t k r hrst hrun
  have hsample : s.sampleRst.1 = .during k ∧ s.sampleRst.2 = { s with rst := r } := by simp [State.sampleRst, hrst]
  obtain ⟨hduring, hrest⟩ := hsample
  have hcut := State.cutAfter_run hrun k
  obtain ⟨u, hu, hspec⟩ := s.sampleRst.2.cutShort_spec k t
  have hstep : step s = .next (s.sampleRst.2.cutShort k t) := by
    simp only [step, hduring, hrun]
    rfl
  rw [← hu] at hcut
  rw [hrest] at hcut hspec hstep ⊢
  rw [hspec] at hstep
  refine ⟨_, hstep, rfl, rfl, rfl, rfl, rfl, rfl, rfl, rfl, rfl, rfl, hcut.command, hcut.dispatch, hcut.iteration,
    fun hk => ?_⟩
  obtain ⟨ht, hticks, hdraws⟩ := hcut.all hk
  exact ⟨ht.symm, hticks.symm, hdraws.symm⟩

end Sys2Proof.Machine
end

section
/-! Several steps in a row: silence runs the budget out (R265). -/

namespace Sys2Proof.Machine

/-! ### Steps in a row -/

/-- `k` steps lead from `s` to `t`. -/
def stepsTo (k : Nat) (s t : State) : Prop := Host.Core.run Sys2Proof.core k s = .next t

theorem stepsTo_refl (s : State) : stepsTo 0 s s := rfl

theorem stepsTo_succ {k : Nat} {s t u : State} (h : step s = .next t) (h' : stepsTo k t u) : stepsTo (k + 1) s u := by
  have hstep : Sys2Proof.core.step s = .next t := h
  simp only [stepsTo, Host.Core.run, hstep]
  exact h'

theorem stepsTo_one {s t : State} (h : step s = .next t) : stepsTo 1 s t := stepsTo_succ h (stepsTo_refl t)

theorem stepsTo_trans : ∀ {j k : Nat} {s t u : State}, stepsTo j s t → stepsTo k t u → stepsTo (k + j) s u
  | 0, k, s, t, u, h, h' => by
    obtain rfl : s = t := Host.Outcome.next.inj h
    exact h'
  | j + 1, k, s, t, u, h, h' => by
    simp only [stepsTo, Host.Core.run] at h
    split at h
    · next v hv => exact stepsTo_succ (k := k + j) hv (stepsTo_trans (j := j) h h')
    · cases h
    · cases h

/-! ### Silence -/

section
variable {s : State} {x : BitVec 32} {r : List (BitVec 32)}

theorem State.elapsed_of_ticks (h : s.ticks = x :: r) : s.elapsed = (x - s.rxLast).toNat := by
  rw [State.elapsed, State.now_of_ticks h]

theorem State.accounted_of_ticks (h : s.ticks = x :: r) : s.accounted.ticks = r ∧ s.accounted.rxLast = x := by
  have h' : s.sampleRst.2.ticks = x :: r := by rwa [State.sampleRst_ticks]
  rw [State.accounted, State.accountTime, State.now_of_ticks h']
  exact ⟨rfl, rfl⟩

theorem State.arrive_of_arrivals {a : List (BitVec 8)} {ar : List (List (BitVec 8))} (h : s.t.arrivals = a :: ar) :
    s.arrive.t.inbound = s.t.inbound ++ a ∧ s.arrive.t.arrivals = ar := by simp [State.arrive, h]

/-- Nothing is asserted where the script of the reset input is empty. -/
theorem State.iterates_of_listening (hrst : s.rst = []) (hl : s.listening = true) (hst : s.rxState ≠ .done) :
    s.iterates := ⟨by simp [State.sampleRst, hrst], hl, hst⟩

/-- A silent iteration with ticks left waits in `Idle`. -/
theorem step_silent {ar : List (List (BitVec 8))} (hit : s.iterates) (htime : s.outOfTime = false)
    (hst : s.rxState = .idle) (hin : s.t.inbound = []) (har : s.t.arrivals = [] :: ar) :
    step s = .next s.queried ∧ s.queried.t.inbound = [] ∧ s.queried.t.arrivals = ar := by
  obtain ⟨hin', har'⟩ := State.arrive_of_arrivals (s := s.accounted) (by rwa [State.accounted_t])
  rw [State.accounted_t, hin] at hin'
  obtain ⟨hidle, -⟩ := step_of_iterates hit htime
  obtain ⟨-, hrun⟩ | ⟨h, -⟩ := rxIdle_cases s.queried
  · exact ⟨(hidle hst).trans (congrArg _ hrun), hin', har'⟩
  · exact absurd hin' h

end

/-- Silence, by induction over the samples before the last. -/
theorem stepsTo_silence {x : BitVec 32} {tr : List (BitVec 32)} {ar : List (List (BitVec 8))} :
    ∀ (xs : List (BitVec 32)) (s : State), s.rst = [] → s.listening = true → s.rxState = .idle → s.rxUnbounded = false →
      s.t.inbound = [] → s.ticks = xs ++ [x] ++ tr → s.t.arrivals = List.replicate xs.length [] ++ ar →
      (xs = [] ∨ elapsedTotal s.rxLast xs < s.rxBudget.toNat) →
      s.rxBudget.toNat ≤ elapsedTotal s.rxLast (xs ++ [x]) →
      ∃ t, stepsTo (xs.length + 1) s t ∧ s.failsWith t .budgetExhausted ∧
        t.rxExtended = s.rxExtended ∧ t.t.inbound = [] ∧ t.ticks = tr ∧ t.t.arrivals = ar
  | [], s, hrst, hl, hst, hu, hin, hticks, har, _, hlast => by
    have hit := State.iterates_of_listening hrst hl (by simp [hst])
    have htime : s.outOfTime = true := by
      have helapsed := State.elapsed_of_ticks hticks
      simp only [List.nil_append, elapsedTotal] at hlast
      simp only [State.outOfTime, hu, helapsed, Bool.not_false, Bool.true_and, decide_eq_true_eq]
      omega
    obtain ⟨hfail, -, ht⟩ := s.failsWith_accounted .budgetExhausted
    refine ⟨_, stepsTo_one (step_timeout hit htime), hfail, ?_, ?_, ?_, ?_⟩
    · simp [State.accounted]
    · rw [ht, hin]
    · rw [State.rxFail_ticks]
      exact (State.accounted_of_ticks hticks).1
    · rw [ht, har]
      rfl
  | y :: xs, s, hrst, hl, hst, hu, hin, hticks, har, hbefore, hlast => by
    have hit := State.iterates_of_listening hrst hl (by simp [hst])
    have helapsed := State.elapsed_of_ticks (r := xs ++ [x] ++ tr) hticks
    have htotal : (y - s.rxLast).toNat + elapsedTotal y xs < s.rxBudget.toNat := by simpa [elapsedTotal] using hbefore
    have htime : s.outOfTime = false := by
      simp only [State.outOfTime, hu, helapsed, Bool.not_false, Bool.true_and, decide_eq_false_iff_not]
      omega
    have har0 : s.t.arrivals = [] :: (List.replicate xs.length [] ++ ar) := har
    obtain ⟨hstep, hin', har'⟩ := step_silent hit htime hst hin har0
    obtain ⟨hticks', hlast'⟩ := State.accounted_of_ticks (r := xs ++ [x] ++ tr) hticks
    have hbudget : s.queried.rxBudget.toNat = s.rxBudget.toNat - (y - s.rxLast).toNat := by
      rw [State.queried_rxBudget, State.charged, hu, helapsed, if_neg Bool.false_ne_true]
    have hlast'' : s.queried.rxLast = y := (State.arrive_rxLast _).trans hlast'
    have hgoes := State.goesOn_queried hl
    obtain ⟨⟨-, -, -, hu', -, -, -, hrst', -⟩, hl', -, -, -, hst', -⟩ := hgoes
    obtain ⟨t, hrun, hfail, hext, hrest⟩ := stepsTo_silence xs s.queried (hrst'.trans (by rw [hrst]; rfl)) hl'
      (hst'.trans hst) (hu'.trans hu) hin' ((State.arrive_ticks _).trans hticks') har'
      (.inr (by rw [hlast'', hbudget]; omega))
      (by
        rw [hlast'', hbudget]
        simp only [List.cons_append, elapsedTotal] at hlast
        omega)
    refine ⟨t, stepsTo_succ hstep hrun, ?_, hext.trans s.queried_rxExtended, hrest⟩
    simpa only [State.failsWith, State.queried_rxFrame, State.queried_frame] using hfail

/-- Settles O59. -/
theorem silenceTimesOut : Obligations.SilenceTimesOut := fun s xs _ _ _ => stepsTo_silence xs s

end Sys2Proof.Machine
end

section
/-! A frame sent as inbound wire text is received, in either profile (R88, R248 to R257). -/

namespace Sys2Proof.Machine

/-! ### Hexadecimal digits -/

theorem hexval_hexDigit : ∀ n, n < 16 → hexval (hexDigit n) = some n := by decide

theorem hex2_hexDigit (v : BitVec 8) : hex2 (hexDigit (v.toNat / 16)) (hexDigit (v.toNat % 16)) = some v := by
  have hv := v.isLt
  rw [hex2, hexval_hexDigit _ (by omega), hexval_hexDigit _ (by omega)]
  refine congrArg some (BitVec.eq_of_toNat_eq ?_)
  rw [BitVec.toNat_ofNat]
  omega

theorem hex4_hexDigit (v : BitVec 16) : hex4 (hexDigit (v.toNat / 4096)) (hexDigit (v.toNat / 256 % 16))
    (hexDigit (v.toNat / 16 % 16)) (hexDigit (v.toNat % 16)) = some v := by
  have hv := v.isLt
  rw [hex4, hexval_hexDigit _ (by omega), hexval_hexDigit _ (by omega), hexval_hexDigit _ (by omega),
    hexval_hexDigit _ (by omega)]
  refine congrArg some (BitVec.eq_of_toNat_eq ?_)
  rw [BitVec.toNat_ofNat]
  omega

/-- A frame byte of the wire text is fetched as what it was (R88, R254). -/
theorem fetchFrameByte_wireBody (p : Config.WireProfile) (k : Nat) (b : BitVec 8) (bs tail : List (BitVec 8)) :
    fetchFrameByte p k (wireBody p k (b :: bs) ++ tail) = some (some b, wireBody p (k + 1) bs ++ tail) := by
  cases p with
  | rawBinary => rfl
  | asciiHex =>
    have hdigits := hex2_hexDigit b
    by_cases hk : k = 0
    · simp [fetchFrameByte, wireBody, hexText2, hk, hdigits]
    · simp [fetchFrameByte, wireBody, hexText2, hk, hdigits]

/-! ### A frame being received -/

/-- One byte more at the end of the content (R101). -/
theorem Frame.content_put {x : Frame} (hok : x.ok = true) (hroom : x.wr.val < 64) (b : BitVec 8) :
    (x.put b).content = x.content ++ [b] := by
  have hkept : (x.put b).bytes 0 x.wr.val = x.bytes 0 x.wr.val :=
    Frame.bytes_congr fun i _ hi => Frame.sameBytesOutside_put x b i (.inl (by omega))
  rw [Frame.content, Frame.wr_put hroom, Frame.bytes, Mem.slice_add, Nat.zero_add]
  refine congrArg₂ _ hkept ?_
  show [(x.put b).byte x.wr.val] = [b]
  rw [Frame.byte_put_wr hok hroom]

theorem Frame.byte_of_content {x : Frame} {B : List (BitVec 8)} {i : Nat} {b : BitVec 8} (h : x.content = B)
    (hi : B[i]? = some b) : x.byte i = b := by
  subst h
  obtain ⟨hlt, hget⟩ := List.getElem?_eq_some_iff.mp hi
  have hbyte := Frame.getElem_bytes x 0 x.wr.val i hlt
  rw [Nat.zero_add] at hbyte
  exact hbyte.symm.trans hget

/-- A listening receiver on `F[f]` in the state `st`, with an unbounded budget: its working frame is `x`, and `inb` is the
front of what is pending. -/
structure State.receiving (s : State) (f : FrameSel) (cfg : Config.Params) (st : RxState) (x : Frame)
    (inb : List (BitVec 8)) : Prop where
  rst : s.rst = []
  listening : s.listening = true
  unbounded : s.rxUnbounded = true
  state : s.rxState = st
  rxFrame : s.rxFrame = f
  cfg : s.cfg = cfg
  frame : s.frame f = x
  pending : ∃ more, s.t.inbound = inb ++ more

/-- The frame is well formed, not yet read, and holds the bytes `B` (R22). -/
structure Frame.holds (x : Frame) (B : List (BitVec 8)) : Prop where
  ok : x.ok = true
  rd : x.rd.val = 0
  content : x.content = B

theorem Frame.holds.wr {x : Frame} {B : List (BitVec 8)} (h : x.holds B) : x.wr.val = B.length := by
  rw [← h.content, Frame.length_content]

theorem Frame.holds.put {x : Frame} {B : List (BitVec 8)} (h : x.holds B) (hroom : B.length < 64) (b : BitVec 8) :
    (x.put b).holds (B ++ [b]) := by
  have hwr : x.wr.val < 64 := by rwa [h.wr]
  refine ⟨Frame.ok_put h.ok b, ?_, by rw [Frame.content_put h.ok hwr, h.content]⟩
  obtain ⟨-, -, hrd, -⟩ | ⟨hfull, -⟩ := Frame.put_spec x b
  · rw [hrd, h.rd]
  · omega

theorem Frame.holds_of_isClear {x : Frame} (h : x.isClear = true) : x.holds [] := by
  simp only [Frame.isClear, Bool.and_eq_true, decide_eq_true_eq] at h
  obtain ⟨⟨hbuf, hwr⟩, hrd⟩ := h
  refine ⟨(Frame.ok_iff x).mpr ⟨?_, by rw [hbuf]; exact Mem.wf_nil⟩, hrd, ?_⟩
  · rw [Fin.le_def]
    omega
  · rw [Frame.content, hwr]
    rfl

section
variable {s : State} {f : FrameSel} {cfg : Config.Params} {st : RxState} {x : Frame} {inb : List (BitVec 8)}

theorem State.receiving.iterates (h : s.receiving f cfg st x inb) (hst : st ≠ .done) : s.iterates :=
  State.iterates_of_listening h.rst h.listening (h.state ▸ hst)

theorem State.receiving.inTime (h : s.receiving f cfg st x inb) : s.outOfTime = false := by
  simp [State.outOfTime, h.unbounded]

/-- What the query finds begins with what was pending (R63). -/
theorem State.receiving.available (h : s.receiving f cfg st x inb) : ∃ more, s.available = inb ++ more := by
  obtain ⟨more, hmore⟩ := h.pending
  obtain ⟨a, arrivals, draws, harrive⟩ := s.accounted.arrive_spec
  refine ⟨more ++ a, ?_⟩
  rw [← State.queried_inbound, State.queried, harrive]
  simp [hmore]

/-- An iteration that goes on leaves a receiver that receives. -/
theorem State.receiving.next {t : State} {st' : RxState} {y : Frame} {r more : List (BitVec 8)}
    (h : s.receiving f cfg st x inb) (hgoes : s.goesOn t st' (r ++ more)) (hframe : t.frame s.rxFrame = y) :
    t.receiving f cfg st' y r := by
  obtain ⟨⟨-, -, -, hu, hf, -, hcfg, hrst, -⟩, hl, -, -, -, hst, hin⟩ := hgoes
  exact ⟨hrst.trans (by rw [h.rst]; rfl), hl, hu.trans h.unbounded, hst, hf.trans h.rxFrame, hcfg.trans h.cfg,
    h.rxFrame ▸ hframe, more, hin⟩

/-! ### One step of the reception -/

theorem step_receiving_idle (h : s.receiving f cfg .idle x inb) (hne : inb ≠ []) :
    ∃ t, step s = .next t ∧ t.receiving f cfg .rxNode x inb := by
  obtain ⟨more, hav⟩ := h.available
  obtain ⟨t, hstep, hframe, hgoes⟩ := idleAndExtension s (h.iterates (by decide)) h.inTime h.state
  have hpending : s.available ≠ [] := by simp [hav, hne]
  rw [if_pos (.inr (.inl h.unbounded)), if_neg hpending, hav] at hgoes
  exact ⟨t, hstep, h.next hgoes (hframe.trans (h.rxFrame.symm ▸ h.frame))⟩

theorem step_receiving_node {v p : BitVec 8} (h : s.receiving f cfg .rxNode x (hexText2 v ++ p :: inb)) :
    ∃ t, step s = .next t ∧ t.receiving f cfg .rxModule { x with node := v } inb := by
  obtain ⟨more, hav⟩ := h.available
  obtain ⟨hnode, -⟩ := metadataStates s (h.iterates (by decide)) h.inTime
  obtain ⟨t, hstep, -, hends⟩ := (hnode h.state).2 _ _ p (inb ++ more) hav
  rw [hex2_hexDigit] at hends
  obtain ⟨hgoes, hframe⟩ := hends
  rw [h.rxFrame, h.frame] at hframe
  exact ⟨t, hstep, h.next hgoes (h.rxFrame.symm ▸ hframe)⟩

theorem step_receiving_module {v : BitVec 16} {p : BitVec 8}
    (h : s.receiving f cfg .rxModule x (hexText4 v ++ p :: inb)) :
    ∃ t, step s = .next t ∧ t.receiving f cfg .rxSignal { x with moduleId := v } inb := by
  obtain ⟨more, hav⟩ := h.available
  obtain ⟨-, hmodule, -⟩ := metadataStates s (h.iterates (by decide)) h.inTime
  obtain ⟨t, hstep, -, hends⟩ := (hmodule h.state).2 _ _ _ _ p (inb ++ more) hav
  rw [hex4_hexDigit] at hends
  obtain ⟨hgoes, hframe⟩ := hends
  rw [h.rxFrame, h.frame] at hframe
  exact ⟨t, hstep, h.next hgoes (h.rxFrame.symm ▸ hframe)⟩

theorem step_receiving_signal {v p : BitVec 8} (h : s.receiving f cfg .rxSignal x (hexText2 v ++ p :: inb)) :
    ∃ t, step s = .next t ∧ t.receiving f cfg .rxHeader { x with sig := v } inb := by
  obtain ⟨more, hav⟩ := h.available
  obtain ⟨-, -, hsignal⟩ := metadataStates s (h.iterates (by decide)) h.inTime
  obtain ⟨t, hstep, -, hends⟩ := (hsignal h.state).2 _ _ p (inb ++ more) hav
  rw [hex2_hexDigit] at hends
  obtain ⟨hgoes, hframe⟩ := hends
  rw [h.rxFrame, h.frame] at hframe
  exact ⟨t, hstep, h.next hgoes (h.rxFrame.symm ▸ hframe)⟩

/-- One frame byte (R253, R256). -/
theorem step_receiving_byte {B : List (BitVec 8)} {b : BitVec 8} {bs : List (BitVec 8)}
    (h : s.receiving f cfg st x (wireBody cfg.profile B.length (b :: bs) ++ inb)) (hx : x.holds B) (hroom : B.length < 64)
    (hst : st = .rxHeader ∨ (st = .rxPayload ∧ 1 ≤ x.lengthField ∧ x.lengthField ≤ 61 ∧ B.length < 3 + x.lengthField)) :
    ∃ t, step s = .next t ∧ t.receiving f cfg (if st = .rxHeader ∧ B.length = 2 then .rxPayload else st) (x.put b)
      (wireBody cfg.profile (B.length + 1) bs ++ inb) := by
  have hwork : s.frame s.rxFrame = x := h.rxFrame.symm ▸ h.frame
  have hdone : st ≠ .done := by
    obtain rfl | ⟨rfl, -⟩ := hst <;> decide
  obtain ⟨more, hav⟩ := h.available
  have hbyte := fetchFrameByte_wireBody cfg.profile B.length b bs (inb ++ more)
  obtain ⟨t, hstep, hends⟩ := step_frameByte (h.iterates hdone) h.inTime (by rwa [hwork, hx.wr])
    (by rwa [h.state, hwork, hx.wr])
  rw [State.queried_nextFrameByte, h.cfg, hwork, hx.wr, hav, List.append_assoc, hbyte, h.state] at hends
  refine ⟨t, hstep, ?_⟩
  obtain ⟨hnone, -⟩ | ⟨r, hbad, -⟩ | ⟨v, r, hgood, hframe, hgoes⟩ := hends
  · cases hnone
  · cases hbad
  · cases hgood
    rw [← List.append_assoc] at hgoes
    exact h.next hgoes hframe

/-- The terminator (R256). -/
theorem step_receiving_terminator {a b : BitVec 8} {B : List (BitVec 8)}
    (h : s.receiving f cfg .rxPayload x (a :: b :: inb)) (hx : x.holds B) (hone : 1 ≤ x.lengthField)
    (hmax : x.lengthField ≤ 61) (hall : B.length = 3 + x.lengthField) :
    ∃ t, step s = .next t ∧ t.receiving f cfg .done x inb := by
  have hwork : s.frame s.rxFrame = x := h.rxFrame.symm ▸ h.frame
  obtain ⟨more, hav⟩ := h.available
  have hwr := hx.wr
  rw [Frame.lengthField_eq] at hone hmax hall
  obtain ⟨t, hstep, hframe, hgoes⟩ := terminator s (h.iterates (by decide)) h.inTime h.state (by rwa [hwork])
    (by rwa [hwork]) (by rw [hwork]; omega)
  rw [if_neg (by simp [hav]), hav] at hgoes
  exact ⟨t, hstep, h.next hgoes (hframe.trans hwork)⟩

/-- The payload, byte by byte. -/
theorem stepsTo_receiving_payload {inb : List (BitVec 8)} : ∀ (bs B : List (BitVec 8)) (s : State) (x : Frame),
    s.receiving f cfg .rxPayload x (wireBody cfg.profile B.length bs ++ inb) → x.holds B → 1 ≤ B.length →
    1 ≤ x.lengthField → x.lengthField ≤ 61 → B.length + bs.length = 3 + x.lengthField →
    ∃ t y, stepsTo bs.length s t ∧ t.receiving f cfg .rxPayload y inb ∧ y.holds (B ++ bs) ∧ x.sameMeta y ∧
      y.lengthField = x.lengthField
  | [], B, s, x, h, hx, _, _, _, _ => ⟨s, x, stepsTo_refl s, h, by rwa [List.append_nil], Frame.sameMeta_refl x, rfl⟩
  | b :: bs, B, s, x, h, hx, hB, hone, hmax, hall => by
    rw [List.length_cons] at hall
    have hwr := hx.wr
    obtain ⟨t, hstep, ht⟩ := step_receiving_byte h hx (by omega) (.inr ⟨rfl, hone, hmax, by omega⟩)
    rw [if_neg (by simp)] at ht
    have hlen := Frame.lengthField_put (x := x) (by omega) b
    have hput := hx.put (by omega) b
    obtain ⟨u, y, hrun, hu, hy, hmeta, hsame⟩ := stepsTo_receiving_payload bs (B ++ [b]) t (x.put b)
      (by rwa [List.length_append]) hput (by rw [List.length_append]; omega) (by rwa [hlen]) (by rwa [hlen])
      (by rw [hlen, List.length_append, List.length_singleton]; omega)
    refine ⟨u, y, stepsTo_succ hstep hrun, hu, ?_, Frame.sameMeta_trans (Frame.sameMeta_put x b) hmeta,
      hsame.trans hlen⟩
    rwa [List.append_assoc] at hy

/-- The completed frame is delivered (R257, R258). -/
theorem step_receiving_done (h : s.receiving f cfg .done x inb) (htype : (x.byte 1).toNat % 8 ≤ 3)
    (hop : (x.byte 1).toNat % 8 = 1 → x.byte 3 ≠ cfg.opcExec) :
    ∃ t, step s = .next t ∧ t.frame f = x ∧ t.rxState = .idle ∧ t.listening = false ∧
      t.result = some (okResult ((x.byte 1).toNat % 8) [] false) ∧ t.t = s.t := by
  have hwork : s.frame s.rxFrame = x := h.rxFrame.symm ▸ h.frame
  have hsample : s.sampleRst = (.released, s) := by simp [State.sampleRst, h.rst]
  have hstep : ∀ i, decode (.header x.headerWord) = .ok i → step s = exec i s := fun i hi => by
    rw [← hwork] at hi
    have hrun := (stepRunsDecoded s i (by rw [hsample])).2.1 h.listening h.state hi
    rwa [hsample] at hrun
  obtain ⟨hd, -, -, -, -, -, -, hdecode⟩ := headerWordFields x
  have hrow : ∀ enc i, decode (.header x.headerWord) = .ok i →
      ((i = .typeDataRaw hd ∧ (x.byte 1).toNat % 8 = 0) ∨ (i = .typeDataEnc hd ∧ (x.byte 1).toNat % 8 = 0) ∨
        (i = .typeCommand enc hd ∧ (x.byte 1).toNat % 8 = 1 ∧ (s.frame s.rxFrame).byte 3 ≠ s.cfg.opcExec) ∨
        (i = .typeAck enc hd ∧ (x.byte 1).toNat % 8 = 2) ∨ (i = .typeNotice enc hd ∧ (x.byte 1).toNat % 8 = 3)) →
      ∃ t, step s = .next t ∧ t.frame f = x ∧ t.rxState = .idle ∧ t.listening = false ∧
        t.result = some (okResult ((x.byte 1).toNat % 8) [] false) ∧ t.t = s.t := fun enc i hi hcase => by
    obtain ⟨t, hexec, hsame, hframe, hst, hl, hres⟩ := (completedFrames hd enc 0 s).1 i _ hcase
    obtain ⟨-, -, -, -, -, -, -, -, -, -, -, ht, -⟩ := hsame
    exact ⟨t, (hstep i hi).trans hexec, h.rxFrame ▸ hframe.trans hwork, hst, hl, hres, ht⟩
  rw [hwork, h.cfg] at hrow
  have hcases : (x.byte 1).toNat % 8 = 0 ∨ (x.byte 1).toNat % 8 = 1 ∨ (x.byte 1).toNat % 8 = 2 ∨
      (x.byte 1).toNat % 8 = 3 := by omega
  obtain h0 | h1 | h2 | h3 := hcases
  · rw [h0] at hdecode
    by_cases henc : (x.byte 1).getLsbD 5 = true
    · exact hrow true _ (hdecode.trans (congrArg _ (if_pos henc))) (.inr (.inl ⟨rfl, h0⟩))
    · exact hrow true _ (hdecode.trans (congrArg _ (if_neg henc))) (.inl ⟨rfl, h0⟩)
  · rw [h1] at hdecode
    exact hrow _ _ hdecode (.inr (.inr (.inl ⟨rfl, h1, hop h1⟩)))
  · rw [h2] at hdecode
    exact hrow _ _ hdecode (.inr (.inr (.inr (.inl ⟨rfl, h2⟩))))
  · rw [h3] at hdecode
    exact hrow _ _ hdecode (.inr (.inr (.inr (.inr ⟨rfl, h3⟩))))

end

/-- The front of the wire text (R88, R249 to R251): four steps store the metadata. -/
theorem stepsTo_receiving_metadata {s : State} {f : FrameSel} {cfg : Config.Params} {x : Frame} {inb : List (BitVec 8)}
    {node sig p q r : BitVec 8} {moduleId : BitVec 16}
    (h : s.receiving f cfg .idle x (hexText2 node ++ p :: (hexText4 moduleId ++ q :: (hexText2 sig ++ r :: inb)))) :
    ∃ t, stepsTo 4 s t ∧ t.receiving f cfg .rxHeader { x with node := node, moduleId := moduleId, sig := sig } inb := by
  obtain ⟨s1, h1, hr1⟩ := step_receiving_idle h (by simp [hexText2])
  obtain ⟨s2, h2, hr2⟩ := step_receiving_node hr1
  obtain ⟨s3, h3, hr3⟩ := step_receiving_module hr2
  obtain ⟨s4, h4, hr4⟩ := step_receiving_signal hr3
  exact ⟨s4, stepsTo_succ h1 (stepsTo_succ h2 (stepsTo_succ h3 (stepsTo_one h4))), hr4⟩

/-- The header, byte by byte (R253). -/
theorem stepsTo_receiving_header {s : State} {f : FrameSel} {cfg : Config.Params} {x : Frame} {inb : List (BitVec 8)}
    {b0 b1 b2 : BitVec 8} {bs : List (BitVec 8)} (hx : x.holds [])
    (h : s.receiving f cfg .rxHeader x (wireBody cfg.profile 0 (b0 :: b1 :: b2 :: bs) ++ inb)) :
    ∃ t y, stepsTo 3 s t ∧ t.receiving f cfg .rxPayload y (wireBody cfg.profile 3 bs ++ inb) ∧ y.holds [b0, b1, b2] ∧
      x.sameMeta y := by
  have hx1 := hx.put (by simp) b0
  have hx2 := hx1.put (by simp) b1
  have hx3 := hx2.put (by simp) b2
  obtain ⟨s1, h1, hr1⟩ := step_receiving_byte (B := []) h hx (by simp) (.inl rfl)
  obtain ⟨s2, h2, hr2⟩ := step_receiving_byte (B := [b0]) hr1 hx1 (by simp) (.inl rfl)
  obtain ⟨s3, h3, hr3⟩ := step_receiving_byte (B := [b0, b1]) hr2 hx2 (by simp) (.inl rfl)
  exact ⟨s3, _, stepsTo_succ h1 (stepsTo_succ h2 (stepsTo_one h3)), hr3, hx3,
    Frame.sameMeta_trans (Frame.sameMeta_put _ b0)
      (Frame.sameMeta_trans (Frame.sameMeta_put _ b1) (Frame.sameMeta_put _ b2))⟩

/-- Settles O58: the metadata, the header, the payload, the terminator and the dispatch, one after the other. -/
theorem receivesWireText : Obligations.ReceivesWireText := by
  intro s node moduleId sig b0 b1 b2 p rest hrst hl hst hu hclear hlen hone hmax htype hop hin
  have h0 : s.receiving s.rxFrame s.cfg .idle (s.frame s.rxFrame)
      (hexText2 node ++ 0x2C :: (hexText4 moduleId ++ 0x2C :: (hexText2 sig ++ 0x3A ::
        (wireBody s.cfg.profile 0 (b0 :: b1 :: b2 :: p) ++ (0x0D :: 0x0A :: rest))))) :=
    ⟨hrst, hl, hu, hst, rfl, rfl, rfl, [], by rw [hin, wireText]; simp⟩
  obtain ⟨s1, hrun1, h1⟩ := stepsTo_receiving_metadata h0
  obtain ⟨s2, x, hrun2, h2, hx, hmeta⟩ :=
    stepsTo_receiving_header (Frame.holds_of_isClear (by simpa [Frame.isClear] using hclear)) h1
  have hlength : x.lengthField = p.length := by
    rw [Frame.lengthField_eq, Frame.byte_of_content hx.content (b := b0) rfl, hlen]
  obtain ⟨s3, y, hrun3, h3, hy, hmeta', hlength'⟩ := stepsTo_receiving_payload p [b0, b1, b2] s2 x h2 hx (by simp)
    (by rwa [hlength]) (by rwa [hlength]) (by rw [hlength]; rfl)
  have hall : ([b0, b1, b2] ++ p).length = 3 + y.lengthField := by
    rw [hlength', hlength, List.length_append]
    rfl
  obtain ⟨s4, hrun4, h4⟩ := step_receiving_terminator h3 hy (by omega) (by omega) hall
  have hbyte1 : y.byte 1 = b1 := Frame.byte_of_content hy.content rfl
  have hbyte3 : (y.byte 1).toNat % 8 = 1 → y.byte 3 ≠ s.cfg.opcExec := fun hcmd heq => by
    cases p with
    | nil => simp at hone
    | cons c p =>
      have hbyte : y.byte 3 = c := Frame.byte_of_content hy.content rfl
      exact hop (hbyte1 ▸ hcmd) (congrArg some (hbyte.symm.trans heq))
  obtain ⟨s5, hrun5, hframe, hst5, hl5, hres, ht⟩ := step_receiving_done h4 (by rwa [hbyte1]) hbyte3
  obtain ⟨more, hmore⟩ := h4.pending
  have hsteps : stepsTo (p.length + 9) s s5 := by
    have hrun := stepsTo_trans (stepsTo_trans (stepsTo_trans hrun1 hrun2) hrun3)
      (stepsTo_succ hrun4 (stepsTo_one hrun5))
    rwa [show 1 + 1 + (p.length + (3 + 4)) = p.length + 9 by omega] at hrun
  obtain ⟨hn, hm, hs⟩ := Frame.sameMeta_trans hmeta hmeta'
  have hwr : y.wr.val = 3 + p.length := by rw [hy.wr, hall, hlength', hlength]
  refine ⟨s5, more, hsteps, by rw [hres, hbyte1], hl5, hst5, ?_⟩
  rw [hframe, ht]
  refine ⟨hwr, hy.rd, ?_, hn, hm, hs, hmore⟩
  rw [← hwr]
  exact hy.content

end Sys2Proof.Machine
end
